-- ==== Sys2Proof/Word.lean ====
section
/-!
DEFINITION. The word types of XDE: bytes, fixed-length byte sequences (spec/00_scope.md R10) and the
64-bit command word (spec/30_encoding.md R63). Every value is unsigned (R12). The byte-order and
bit-field helpers stand in Decode.lean and Machine/Bytes.lean.
-/

namespace Sys2Proof

/-- A byte: an unsigned 8-bit value, bit 7 the most significant (R10). -/
abbrev Byte := BitVec 8

/-- A byte sequence `B` of length `n`, written `B[0] .. B[n-1]`; `B[0]` is the first byte transferred
or stored (R10). -/
abbrev Bytes (n : Nat) := Vector Byte n

/-- A 16-byte block (R19, R52). -/
abbrev Block := Bytes 16

/-- A 64-bit command word (R63). -/
abbrev CommandWord := BitVec 64

end Sys2Proof
end

