-- ==== Sys2Proof/Machine/Bytes.lean ====
section
/-!
DEFINITION. Byte sequences and their big-endian value: the notation of spec/00_scope.md R10 to R12 and
the byte order of spec/20_memory.md R48 to R54.
-/

namespace Sys2Proof.Machine

/-- `0^(8n)`: `n` zero bytes. -/
def zeroBytes (n : Nat) : Bytes n := Vector.replicate n 0#8

/-- `be128(B)`: the unsigned value of a 16-byte block with `B[0]` the most significant byte (R11). -/
def be128 (b : Block) : BitVec 128 :=
  BitVec.ofNat 128 (b.toList.foldl (fun v x => v * 256 + x.toNat) 0)

/-- `bytes128(v)`: the 16-byte sequence whose be128 is `v` (R11). -/
def bytes128 (v : BitVec 128) : Block :=
  Vector.ofFn fun i => v.extractLsb' (8 * (15 - i.val)) 8

/-- `B ^ C` on byte sequences of equal length, byte by byte (R12). -/
def xorBytes {n : Nat} (a b : Bytes n) : Bytes n :=
  Vector.ofFn fun i => a[i] ^^^ b[i]

/-- `A ‖ B`: the bytes of `A`, then the bytes of `B` (R10). -/
def concatBytes {m n : Nat} (a : Bytes m) (b : Bytes n) : Bytes (m + n) := a ++ b

/-- `DATA[0..n)` of a latched byte sequence: byte `i` of the sequence at index `i`, no swapping (R48).
A sequence shorter than `n` is filled with zeros; no command reads one so short in a state a run
reaches, since its length is DLEN (DESIGN CHOICE, safe, log entry 5). -/
def firstBytes (n : Nat) (data : List Byte) : Bytes n :=
  Vector.ofFn fun i => data.getD i.val 0#8

end Sys2Proof.Machine
end

