-- ==== Sys2Proof/Machine/Dblu.lean ====
section
/-!
DEFINITION. DBLU, the doubling unit (spec/40_subkey.md R79). The shift-and-XOR algorithm is the
definition; the field reading of spec/00_scope.md R18 is orientation only.
-/

namespace Sys2Proof.Machine

/-- `DBL128`: left shift of the big-endian value by one bit, the top bit out as carry; with carry 1,
XOR 0x87 into the low byte (R79). -/
def dbl128 (b : Block) : Block :=
  let v := be128 b
  let carry := v.getLsbD 127
  let s := v <<< 1
  bytes128 (s ^^^ (if carry then 0x87#128 else 0x00#128))

end Sys2Proof.Machine
end

