-- ==== Sys2Proof/Config.lean ====
section
/-!
DEFINITION. What is fixed for the machine over a run (spec/10_state.md R45): the external AES core, a
parameter (spec/00_scope.md R7), and the constants PARAM exposes (R5, R32).
-/

namespace Sys2Proof.Config

/-- `AES256_ENC : Bytes32 -> Bytes16 -> Bytes16`, the external primitive (R7, I1). It has no body: a
claim about a concrete output must assume a named property of it. DEDUCED, safe; log entry 1. -/
opaque aes256Enc : Bytes 32 → Block → Block

/-- NONCE_SIZE = 24 bytes (R5, §6). -/
abbrev nonceSize : Nat := 24
/-- KEY_SIZE = 32 bytes (R5, §6). -/
abbrev keySize : Nat := 32
/-- TAG_OVERHEAD = 16 bytes (R5, §6). -/
abbrev tagOverhead : Nat := 16
/-- The block size of AES and of the doubling unit, 16 bytes (R19). -/
abbrev blockSize : Nat := 16
/-- PARAM.REV: XDE-CS revision 1 (R32). -/
abbrev revision : Nat := 1

end Sys2Proof.Config
end

