-- ==== Sys2Proof/Syntax.lean ====
section
/-!
DEFINITION. The instructions of XDE: one constructor per row of spec/opcode_table.json. Six are command
words (spec/30_encoding.md R64, R69), four are selectors of the host read port (R74).
-/

namespace Sys2Proof

/-- One constructor per row of spec/opcode_table.json. The data bytes of a command are no part of the
word: they arrive beside it and are latched (R50, R35), so no constructor carries them. -/
inductive Instr where
  /-- LDKEY: load the master key, derive K1 (R87). -/
  | ldkey (dlen : BitVec 8)
  /-- SEALPREP: derive the key and hand off for seal (R105). -/
  | sealprep (dlen : BitVec 8)
  /-- OPENPREP: as SEALPREP with the ciphertext-length pre-check, hand off for open (R107). -/
  | openprep (dlen : BitVec 8) (ctlen : BitVec 40)
  /-- DBL: double the data block into RESULT (R91). -/
  | dbl (dlen : BitVec 8)
  /-- CLR: zeroise (R113). -/
  | clr
  /-- RD STATUS: read selector 0b00 (R74, R119). -/
  | rdStatus
  /-- RD PARAM: read selector 0b01 (R74, R119). -/
  | rdParam
  /-- RD RESULT: read selector 0b10 (R74, R119). -/
  | rdResult
  /-- Read selector 0b11, reserved: reads as zero (R120). -/
  | rdReserved
  /-- ILLEGAL: any word that selects no command; it keeps its raw word (R71, R78, R115). -/
  | illegal (word : CommandWord)
  deriving DecidableEq, Repr

end Sys2Proof
end

