-- ==== Sys2Proof/Machine/State.lean ====
section
/-!
DEFINITION. The state of the machine as plain data. `Xde` is the architectural state of
spec/10_state.md R23 to R35 and nothing else; `State` adds what the model itself needs to be one
deterministic machine: the host's program and the agents' turns still to come (spec/00_scope.md R4,
spec/60_exceptions.md R139) and what the ports put out in the last step (R36, R38, R41). Log entries 2 and 3,
both DESIGN CHOICE.
-/

namespace Sys2Proof.Machine

/-- The error codes of `STATUS.ERR` (R129). Code 7 is reserved and never written (R137), so it has no
constructor (log entry 11, DEDUCED, safe); `ErrCode.bits` in Flags.lean gives the numbers. -/
inductive ErrCode where
  /-- 0: success. -/
  | ok
  /-- 1: LDKEY with DLEN ≠ 32 (R130). -/
  | invalidKey
  /-- 2: SEALPREP or OPENPREP with DLEN ≠ 24 (R131). -/
  | invalidNonce
  /-- 3: OPENPREP with CTLEN < 16 (R133). -/
  | invalidCiphertext
  /-- 4: the word decodes to ILLEGAL (R134). -/
  | illegalCommand
  /-- 5: SEALPREP or OPENPREP with KEYED = 0 (R135). -/
  | notKeyed
  /-- 6: DBL with DLEN ≠ 16 (R136). -/
  | invalidBlock
  deriving DecidableEq, Repr

/-- AEAD_MODE (R33): 0 = seal, 1 = open; `Mode.bit` in Flags.lean gives the bit. -/
inductive Mode where
  | sealMode
  | openMode
  deriving DecidableEq, Repr

/-- The AEAD output port registers (R33). `STATUS.OUT_VALID` is a view of `valid` (R30). -/
@[ext]
structure Aead where
  /-- AEAD_VALID: the other registers hold one complete hand-off. -/
  valid : Bool
  /-- AEAD_MODE. -/
  mode : Mode
  /-- AEAD_KEY, the derived key DK, 32 bytes. -/
  key : Bytes 32
  /-- AEAD_IV, the GCM IV, 12 bytes. -/
  iv : Bytes 12
  /-- AEAD_BODYLEN: ciphertext body length for open, 0 for seal. -/
  bodylen : BitVec 40
  deriving DecidableEq, Repr

/-- The architectural state of XDE (R23 to R35). -/
@[ext]
structure Xde where
  ofRegs ::
  /-- MK, the master key, 32 bytes; not host-readable (R23). -/
  mk : Bytes 32
  /-- K1, the subkey, 16 bytes; not host-readable (R24). -/
  k1 : Block
  /-- KEYED: a key instance exists (R25). -/
  keyed : Bool
  /-- STATUS.BUSY: an accepted command has not completed (R28). -/
  busy : Bool
  /-- STATUS.ERR: the outcome of the last completed command (R29). -/
  err : ErrCode
  /-- STATUS.RES_VALID (R31). -/
  resValid : Bool
  /-- RESULT, 16 bytes, read selector 2 (R34). -/
  result : Block
  /-- The AEAD output port registers (R33). -/
  aead : Aead
  /-- LATCH_W, the command latch's word; hidden (R35). -/
  latchW : CommandWord
  /-- LATCH_D, the command latch's data bytes, 0 to 255 of them; hidden (R35). -/
  latchD : List Byte
  deriving DecidableEq, Repr

/-- One block presented on the AES port: a 32-byte key and a 16-byte block (R41). -/
@[ext]
structure AesRequest where
  key : Bytes 32
  block : Block
  deriving DecidableEq, Repr

/-- What the ports put out in one step. These are the step's outputs and no state of XDE (R45's file,
opening of spec/10_state.md); the AEAD port's outputs are registers and stand in `Xde.aead`. -/
inductive Output where
  /-- Nothing: a reset, an acknowledge, or no step taken. -/
  | quiet
  /-- CMD_READY as the host saw it for the word it presented (R37). -/
  | cmdReady (ready : Bool)
  /-- RDATA, 16 bytes (R38). -/
  | rdata (value : Block)
  /-- The blocks presented to the AES core by a completion, in order (R41, R86). -/
  | aes (requests : List AesRequest)
  deriving DecidableEq, Repr

/-- One item of the host's program, the sequence that belongs to the host and not to XDE (R22). -/
inductive HostMove where
  /-- Present a command word and its data bytes until they are accepted (R36, R117, R118). -/
  | present (word : CommandWord) (data : List Byte)
  /-- Read the read port with selector RSEL (R38). -/
  | read (rsel : BitVec 2)
  /-- WAIT: read STATUS until it shows BUSY = 0 (R60, R76). -/
  | wait
  deriving DecidableEq, Repr

/-- Whose step comes at a step boundary (R139: host accept, engine completion, GCM consumer ACK, host read,
or reset). -/
inductive Turn where
  /-- The host goes on with its program; a presentation that CMD_READY holds stays (R118). -/
  | host
  /-- The host withdraws the command it presents (R118). -/
  | withdraw
  /-- The GCM consumer asserts AEAD_ACK (R39, R121). -/
  | consumer
  /-- The engine's completion step is scheduled (R116). -/
  | engine
  /-- RST is asserted; possible at any step boundary, also while the host is held (R40, R150). -/
  | reset
  deriving DecidableEq, Repr

/-- The machine: XDE, the host's program, whose turns come next, and the last step's port outputs. -/
@[ext]
structure State where
  /-- The architectural state (R23 to R35). -/
  xde : Xde
  /-- The model's own: what the host still has to do, the item it stands at first. A held command stays
  here, so a host can wait for ever (R118, R157). DESIGN CHOICE, log entry 2. -/
  host : List HostMove
  /-- The model's own: the turns scheduled, the next first. Any interleaving of the agents is some such
  list (R139). DESIGN CHOICE, log entry 2. -/
  turns : List Turn
  /-- The model's own: the outputs of the step just taken. DESIGN CHOICE, safe, log entry 3. -/
  out : Output
  deriving DecidableEq, Repr

/-- A fault that stops the machine. There is none: XDE has no traps, an error is a value of STATUS
(R123), and no command and no agent's step stops it. The type is closed and empty. -/
inductive Fault where
  deriving DecidableEq, Repr

/-- Why a step has no meaning. -/
inductive Refusal where
  /-- Raised by an arm of `exec` whose instruction has no meaning yet; safe (the model stops). No arm
  raises it. -/
  | notModelled (mnemonic : String)
  /-- Raised by a `present` move whose data bytes are not DLEN in number: the host has no such move
  (R50, R160; spec/93_implementation_defined.md I11 "refuse"). Unsafe for a host that could do it
  (R160 "errs toward proving for such a host"); DEDUCED, log entry 6. -/
  | dataCountMismatch
  deriving DecidableEq, Repr

/-- The result of one step. -/
abbrev Result := Host.Outcome State Fault Refusal

/-- The AEAD registers with everything zero: reset (R33), ACK (R121) and CLR (R113) leave them so. -/
def Aead.zero : Aead where
  valid := false
  mode := .sealMode
  key := Vector.replicate 32 0#8
  iv := Vector.replicate 12 0#8
  bodylen := 0#40

/-- Every register at its reset value (R150). -/
def Xde.reset : Xde where
  mk := Vector.replicate 32 0#8
  k1 := Vector.replicate 16 0#8
  keyed := false
  busy := false
  err := .ok
  resValid := false
  result := Vector.replicate 16 0#8
  aead := Aead.zero
  latchW := 0#64
  latchD := []

/-- The machine right after reset: XDE idle with no key instance (R153), no program, no output. -/
def State.reset : State where
  xde := Xde.reset
  host := []
  turns := []
  out := .quiet

end Sys2Proof.Machine
end

