-- ==== Sys2Proof/Machine/Aesw.lean ====
section
/-!
DEFINITION. AESW, the AES invocation wrapper (spec/40_subkey.md R82 to R86): every encipherment goes
through one request on the AES port, so what is presented and what is computed cannot differ.
-/

namespace Sys2Proof.Machine

/-- The AES core's answer to one request: `AES256_ENC(key, block)`, with no failure, no chaining and no
state (R7, R41, R82). -/
def AesRequest.answer (r : AesRequest) : Block := Config.aes256Enc r.key r.block

/-- The request of a successful LDKEY: the all-zero block under the new master key (R84). -/
def zeroBlockRequest (mk : Bytes 32) : AesRequest := ⟨mk, zeroBytes 16⟩

/-- K1 = DBL128(L) with L = AES(MK, 0^128); L is transient and stored nowhere (R84, R85). -/
def subkeyOf (mk : Bytes 32) : Block := dbl128 (zeroBlockRequest mk).answer

end Sys2Proof.Machine
end

