-- ==== Sys2Proof/Machine/Nfmt.lean ====
section
/-!
DEFINITION. NFMT, the nonce splitter and formatter, and the derivation through AESW
(spec/41_derive.md R97 to R104).
-/

namespace Sys2Proof.Machine

/-- NP = N[0..12), which feeds key derivation (R97). -/
def noncePrefix (n : Bytes 24) : Bytes 12 := Vector.ofFn fun i => n[i.val]

/-- NS = N[12..24), used directly as the GCM IV (R97, R104). -/
def nonceSuffix (n : Bytes 24) : Bytes 12 := Vector.ofFn fun i => n[12 + i.val]

/-- M1 = [0x00, 0x01, 0x58, 0x00] ‖ NP (R98). -/
def blockM1 (n : Bytes 24) : Block :=
  concatBytes (#v[0x00#8, 0x01#8, 0x58#8, 0x00#8] : Bytes 4) (noncePrefix n)

/-- M2 = [0x00, 0x02, 0x58, 0x00] ‖ NP (R99). -/
def blockM2 (n : Bytes 24) : Block :=
  concatBytes (#v[0x00#8, 0x02#8, 0x58#8, 0x00#8] : Bytes 4) (noncePrefix n)

/-- The request for DK_LO: X1 = M1 ^ K1 under MK (R100, R101). -/
def requestLo (mk : Bytes 32) (k1 : Block) (n : Bytes 24) : AesRequest :=
  ⟨mk, xorBytes (blockM1 n) k1⟩

/-- The request for DK_HI: X2 = M2 ^ K1 under MK (R100, R101). -/
def requestHi (mk : Bytes 32) (k1 : Block) (n : Bytes 24) : AesRequest :=
  ⟨mk, xorBytes (blockM2 n) k1⟩

/-- The two blocks of one derivation in buffer order (R101). -/
def deriveRequests (mk : Bytes 32) (k1 : Block) (n : Bytes 24) : List AesRequest :=
  [requestLo mk k1 n, requestHi mk k1 n]

/-- DK = AES(MK, X1) ‖ AES(MK, X2) (R101, R102). -/
def derivedKey (mk : Bytes 32) (k1 : Block) (n : Bytes 24) : Bytes 32 :=
  concatBytes (requestLo mk k1 n).answer (requestHi mk k1 n).answer

/-- `DERIVE(MK, K1, N)` = (DK, IV) (R102). -/
def derive (mk : Bytes 32) (k1 : Block) (n : Bytes 24) : Bytes 32 × Bytes 12 :=
  (derivedKey mk k1 n, nonceSuffix n)

end Sys2Proof.Machine
end

