-- ==== Sys2Proof/WellFormed.lean ====
section
/-!
DEFINITION. When a term of `Instr` is an instruction of XDE. The widths of DLEN and CTLEN are in the
types, every value of them is legal in the encoding (spec/30_encoding.md R66, R67), and the only term
that stands for no instruction is `illegal w` for a word `w` that selects a command (R70).
-/

namespace Sys2Proof

/-- A row of the match and mask table (R70). -/
structure Row where
  mnemonic : String
  matchBits : CommandWord
  mask : CommandWord
  deriving DecidableEq, Repr

/-- `W & mask = match` (R70). -/
def Row.selects (r : Row) (w : CommandWord) : Bool := (w &&& r.mask) == r.matchBits

/-- The five rows of R70, as opcode_table.json has them. -/
def commandRows : List Row :=
  [ ⟨"LDKEY", 0x1000000000000000#64, 0xFFFF00FFFFFFFFFF#64⟩,
    ⟨"SEALPREP", 0x2000000000000000#64, 0xFFFF00FFFFFFFFFF#64⟩,
    ⟨"OPENPREP", 0x3000000000000000#64, 0xFFFF000000000000#64⟩,
    ⟨"DBL", 0x4000000000000000#64, 0xFFFF00FFFFFFFFFF#64⟩,
    ⟨"CLR", 0x5000000000000000#64, 0xFFFFFFFFFFFFFFFF#64⟩ ]

/-- "Every word that matches no row is ILLEGAL" (R70). -/
def legalWord (w : CommandWord) : Bool := commandRows.any (·.selects w)

/-- The well-formed instructions: all but `illegal w` for a word `w` that R70 gives a command. -/
def Instr.wf : Instr → Bool
  | .ldkey _ => true
  | .sealprep _ => true
  | .openprep _ _ => true
  | .dbl _ => true
  | .clr => true
  | .rdStatus => true
  | .rdParam => true
  | .rdResult => true
  | .rdReserved => true
  | .illegal w => !legalWord w

end Sys2Proof
end

