-- ==== Sys2Proof/Decode.lean ====
section
/-!
DEFINITION. The decoder, total on every command word (spec/30_encoding.md R69) and every read selector
(R74), the encoder (R68), and the host's two entries to them. A word that selects no command is
rejected by the name ILLEGAL, which XDE executes (R115): decoding itself never fails.
-/

namespace Sys2Proof

/-! ### The fields of a command word (R63) -/

/-- OPC, `W[63:60]` (R64). -/
def opcField (w : CommandWord) : BitVec 4 := w.extractLsb' 60 4
/-- RSV, `W[59:48]` (R65). -/
def rsvField (w : CommandWord) : BitVec 12 := w.extractLsb' 48 12
/-- DLEN, `W[47:40]`: an unsigned count, neither scaled nor sign-extended (R66). -/
def dlenField (w : CommandWord) : BitVec 8 := w.extractLsb' 40 8
/-- CTLEN, `W[39:0]`: an unsigned count, neither scaled nor sign-extended (R67). -/
def ctlenField (w : CommandWord) : BitVec 40 := w.extractLsb' 0 40

/-- A command word assembled from its fields (R68). -/
def assembleWord (opc : BitVec 4) (rsv : BitVec 12) (dlen : BitVec 8) (ctlen : BitVec 40) : CommandWord :=
  (opc.setWidth 64 <<< 60) ||| (rsv.setWidth 64 <<< 48) ||| (dlen.setWidth 64 <<< 40) ||| ctlen.setWidth 64

/-! ### Decoding -/

/-- `decode` of R69: it reads only the word, never the data bytes and never XDE's state. -/
def decodeCommand (w : CommandWord) : Instr :=
  if rsvField w ≠ 0#12 then .illegal w
  else if opcField w = 0x1#4 then
    if ctlenField w = 0#40 then .ldkey (dlenField w) else .illegal w
  else if opcField w = 0x2#4 then
    if ctlenField w = 0#40 then .sealprep (dlenField w) else .illegal w
  else if opcField w = 0x3#4 then
    .openprep (dlenField w) (ctlenField w)
  else if opcField w = 0x4#4 then
    if ctlenField w = 0#40 then .dbl (dlenField w) else .illegal w
  else if opcField w = 0x5#4 then
    if ctlenField w = 0#40 ∧ dlenField w = 0#8 then .clr else .illegal w
  else .illegal w

/-- The read selector RSEL (R74). -/
def decodeRead (rsel : BitVec 2) : Instr :=
  if rsel = 0b00#2 then .rdStatus
  else if rsel = 0b01#2 then .rdParam
  else if rsel = 0b10#2 then .rdResult
  else .rdReserved

/-- What an instruction of opcode_table.json is made of: a word on the command port (format CMD64) or a
selector on the host read port (format RSEL2). -/
inductive Encoding where
  | command (word : CommandWord)
  | read (rsel : BitVec 2)
  deriving DecidableEq, Repr

/-- The instruction of an encoding, total. -/
def decode : Encoding → Instr
  | .command w => decodeCommand w
  | .read rsel => decodeRead rsel

/-! ### Encoding -/

/-- The encoding of a well-formed instruction, from the tables of R64, R68 and R74. An illegal word has
no canonical encoding and keeps its raw word (R78). -/
def encode : Instr → Encoding
  | .ldkey dlen => .command (assembleWord 0x1#4 0#12 dlen 0#40)
  | .sealprep dlen => .command (assembleWord 0x2#4 0#12 dlen 0#40)
  | .openprep dlen ctlen => .command (assembleWord 0x3#4 0#12 dlen ctlen)
  | .dbl dlen => .command (assembleWord 0x4#4 0#12 dlen 0#40)
  | .clr => .command (assembleWord 0x5#4 0#12 0#8 0#40)
  | .rdStatus => .read 0b00#2
  | .rdParam => .read 0b01#2
  | .rdResult => .read 0b10#2
  | .rdReserved => .read 0b11#2
  | .illegal w => .command w

/-! ### The host's entry -/

/-- The encoding that `nbits` bits of opcode_table.json's numbering stand for: the RSEL2 rows have 2
bits (8 in whole bytes), the CMD64 rows 64, or none where a row fixes none (ILLEGAL). A command word is a
number (R54), so no byte order enters. `none` where the bits are no selector and no word of that width. -/
def tableEncoding (nbits w : Nat) : Option Encoding :=
  if 0 < nbits ∧ nbits ≤ 8 then
    if w < 4 then some (.read (BitVec.ofNat 2 w)) else none
  else if nbits ≤ 64 then
    if w < 2 ^ 64 then some (.command (BitVec.ofNat 64 w)) else none
  else none

/-- The instruction the decoder reads from the bits of an opcode-table row. -/
def decodeTableWord (nbits w : Nat) : Option Instr := (tableEncoding nbits w).map decode

end Sys2Proof
end

