-- ==== Sys2Proof/Machine/Flags.lean ====
section
/-!
DEFINITION. The numbers behind the named values, and the registers and signals computed from the state:
STATUS (spec/10_state.md R27), PARAM (R32), CMD_READY (R37), RDATA (spec/20_memory.md R54).
-/

namespace Sys2Proof.Machine

/-- The 3-bit code of an error (R129). -/
def ErrCode.bits : ErrCode → BitVec 3
  | .ok => 0#3
  | .invalidKey => 1#3
  | .invalidNonce => 2#3
  | .invalidCiphertext => 3#3
  | .illegalCommand => 4#3
  | .notKeyed => 5#3
  | .invalidBlock => 6#3

/-- AEAD_MODE as the port shows it: 0 = seal, 1 = open (R33). -/
def Mode.bit : Mode → BitVec 1
  | .sealMode => 0#1
  | .openMode => 1#1

/-- STATUS: BUSY [0], KEYED [1], OUT_VALID [2], RES_VALID [3], ERR [6:4], reserved bits zero (R27).
OUT_VALID is AEAD_VALID (R30). -/
def Xde.status (x : Xde) : BitVec 32 :=
  0#25 ++ x.err.bits ++ BitVec.ofBool x.resValid ++ BitVec.ofBool x.aead.valid
    ++ BitVec.ofBool x.keyed ++ BitVec.ofBool x.busy

/-- PARAM: REV [31:24], TAG_OVERHEAD [23:16], KEY_SIZE [15:8], NONCE_SIZE [7:0]; constant (R32). -/
def paramReg : BitVec 32 :=
  BitVec.ofNat 8 Config.revision ++ BitVec.ofNat 8 Config.tagOverhead
    ++ BitVec.ofNat 8 Config.keySize ++ BitVec.ofNat 8 Config.nonceSize

/-- RDATA of a 32-bit register: `zext_128(value)`, so bytes 12 to 15 hold it big-endian (R54). -/
def zext128 (v : BitVec 32) : Block := bytes128 (v.setWidth 128)

/-- The opcodes a pending hand-off holds back: SEALPREP and OPENPREP, whatever the rest of the word (R37). -/
def heldByHandOff (w : CommandWord) : Bool := opcField w == 0x2#4 || opcField w == 0x3#4

/-- CMD_READY for a presented word (R37). -/
def Xde.cmdReady (x : Xde) (w : CommandWord) : Bool :=
  !x.busy && !(heldByHandOff w && x.aead.valid)

end Sys2Proof.Machine
end

