-- ==== Sys2Proof/Machine/Operands.lean ====
section
/-!
DEFINITION. The operand forms (spec/30_encoding.md R72): the latched data operand as a key, a nonce or a
block, the CTLEN count, and the host's duty on the data count.
-/

namespace Sys2Proof.Machine

/-- `length(D) = W[47:40]`: the count of data bytes the host owes with a word (R36, R50). -/
def dataCountOk (w : CommandWord) (d : List Byte) : Bool := d.length == (dlenField w).toNat

/-- LDKEY's operand: `MK[i] = DATA[i]` (R49). -/
def Xde.keyOperand (x : Xde) : Bytes 32 := firstBytes 32 x.latchD

/-- SEALPREP's and OPENPREP's operand: `N = DATA[0..24)` (R51). -/
def Xde.nonceOperand (x : Xde) : Bytes 24 := firstBytes 24 x.latchD

/-- DBL's operand: `DATA[0..16)` (R91). -/
def Xde.blockOperand (x : Xde) : Block := firstBytes 16 x.latchD

/-- BODYLEN = CTLEN - 16, 40 bits; used only where CTLEN >= 16, so it does not wrap (R107, R108). -/
def bodyLength (ctlen : BitVec 40) : BitVec 40 := ctlen - BitVec.ofNat 40 Config.tagOverhead

end Sys2Proof.Machine
end

