-- ==== Sys2Proof/Machine/Ops.lean ====
section
/-!
DEFINITION. The named operations every meaning is made of: the writes of the key, result, AEAD and latch
registers, `raise` (spec/00_scope.md R15; XDE's only exception mechanism, spec/60_exceptions.md R123,
R125: nothing is saved and there is no return), the completion frame (spec/42_control.md R116), and the
other agents' steps (accept R117, acknowledge R121, reset R150).
-/

namespace Sys2Proof.Machine

/-! ### Writes of XDE's registers -/

/-- `STATUS.ERR <- code`. -/
def Xde.setErr (x : Xde) (c : ErrCode) : Xde := { x with err := c }

/-- A new key instance: MK, K1 and KEYED in one step (R87, R89). -/
def Xde.loadKey (x : Xde) (mk : Bytes 32) (k1 : Block) : Xde :=
  { x with mk := mk, k1 := k1, keyed := true }

/-- `MK <- 0^256 ; K1 <- 0^128 ; KEYED <- 0` (R88, R113). -/
def Xde.dropKey (x : Xde) : Xde :=
  { x with mk := zeroBytes 32, k1 := zeroBytes 16, keyed := false }

/-- `RESULT <- value ; RES_VALID <- 1` (R91). -/
def Xde.setResult (x : Xde) (value : Block) : Xde := { x with result := value, resValid := true }

/-- `RESULT <- 0^128 ; RES_VALID <- 0` (R92, R113). -/
def Xde.dropResult (x : Xde) : Xde := { x with result := zeroBytes 16, resValid := false }

/-- `emit AEAD(mode, key, iv, bodylen)`: all five registers in one step (R33, R58). -/
def Xde.emitAead (x : Xde) (mode : Mode) (key : Bytes 32) (iv : Bytes 12) (bodylen : BitVec 40) : Xde :=
  { x with aead := ⟨true, mode, key, iv, bodylen⟩ }

/-- The AEAD registers zeroed together (R113, R121). -/
def Xde.dropAead (x : Xde) : Xde := { x with aead := Aead.zero }

/-- `ACCEPT(W, D)`: the word and all its data bytes latched in one step, ERR cleared, BUSY set (R56, R117). -/
def Xde.accept (x : Xde) (w : CommandWord) (d : List Byte) : Xde :=
  { x with latchW := w, latchD := d, err := .ok, busy := true }

/-- `LATCH_W <- 0 ; LATCH_D <- [] ; BUSY <- 0`, the end of every completion (R116). -/
def Xde.finish (x : Xde) : Xde := { x with latchW := 0#64, latchD := [], busy := false }

/-! ### Bodies of commands -/

/-- What a command's body does: XDE after it, and the blocks it presented to the AES core. -/
structure Body where
  xde : Xde
  aes : List AesRequest
  deriving DecidableEq, Repr

/-- `raise E(code)`: ends the body with `STATUS.ERR <- code` and no AES invocation; `x` is XDE with the
further changes the command's rule lists for that error (R15, R86, R124). -/
def raise (code : ErrCode) (x : Xde) : Body := ⟨x.setErr code, []⟩

/-- A body that ended without an error: `STATUS.ERR` is 0 (R29, R42). R87's "stays 0" is the same in every
state a run reaches (DEDUCED, safe, log entry 7). -/
def succeed (x : Xde) (requests : List AesRequest) : Body := ⟨x.setErr .ok, requests⟩

/-- The successful end of SEALPREP and OPENPREP: DERIVE from the nonce the command carries, then emit
(R102, R103, R105, R107). -/
def handOff (mode : Mode) (bodylen : BitVec 40) (x : Xde) : Body :=
  let n := x.nonceOperand
  let dk := derive x.mk x.k1 n
  succeed (x.emitAead mode dk.1 dk.2 bodylen) (deriveRequests x.mk x.k1 n)

/-- The completion step around a body: the body, then the latch cleared and BUSY 0, all in one step;
a `raise` ends only the body (R116). -/
def complete (body : Xde → Body) (s : State) : Result :=
  let b := body s.xde
  .next { s with xde := b.xde.finish, out := .aes b.aes }

/-- The answer to a host read: RDATA, and no state of XDE changed (R57, R119). -/
def respond (value : Block) (s : State) : Result := .next { s with out := .rdata value }

/-! ### The other agents' steps -/

/-- The host presents (W, D), with `rest` of its program behind. Accepted exactly when CMD_READY is 1; a held
command is not latched and not queued, and the host stays where it is (R36, R117, R118; that a held turn is a
step is the model's choice, log entries 2 and 4). A count other than
DLEN is no move of the host (R160, DEDUCED, log entry 6). -/
def presentStep (w : CommandWord) (d : List Byte) (rest : List HostMove) (s : State) : Result :=
  if dataCountOk w d then
    if s.xde.cmdReady w then
      .next { s with xde := s.xde.accept w d, host := rest, out := .cmdReady true }
    else .next { s with out := .cmdReady false }
  else .refused .dataCountMismatch

/-- The host withdraws the command it presents; where it presents none, nothing changes (R118). -/
def withdrawStep (s : State) : Result :=
  match s.host with
  | .present _ _ :: rest => .next { s with host := rest, out := .quiet }
  | _ => .next { s with out := .quiet }

/-- AEAD_ACK: with AEAD_VALID = 1 the AEAD registers are zeroed; else it has no effect (R121, R122). -/
def ackStep (s : State) : Result :=
  if s.xde.aead.valid then .next { s with xde := s.xde.dropAead, out := .quiet }
  else .next { s with out := .quiet }

/-- RST: every piece of XDE's state to its reset value; a command in flight is abandoned (R150, R152). -/
def resetStep (s : State) : Result := .next { s with xde := Xde.reset, out := .quiet }

/-- No agent's step is enabled: nothing changes (DESIGN CHOICE, safe, log entry 4). -/
def idleStep (s : State) : Result := .next { s with out := .quiet }

end Sys2Proof.Machine
end

