-- ==== Sys2Proof/Machine/Control.lean ====
section
/-!
DEFINITION. CLR (spec/42_control.md R113) and ILLEGAL (R115).
-/

namespace Sys2Proof.Machine

/-- CLR's body: key, hand-off and result all zeroed (R113). -/
def clrBody (x : Xde) : Body := succeed x.dropKey.dropAead.dropResult []

/-- ILLEGAL's body: code 4 and no other change; the word and its data are discarded (R115, R134). -/
def illegalBody (x : Xde) : Body := raise .illegalCommand x

/-- The completion step of CLR (R113, R116). -/
def execClr (s : State) : Result := complete clrBody s

/-- The completion step of an illegal word (R115, R116). Its effect does not depend on the word. -/
def execIllegal (_word : CommandWord) (s : State) : Result := complete illegalBody s

end Sys2Proof.Machine
end

