-- ==== Sys2Proof/Machine/Derive.lean ====
section
/-!
DEFINITION. SEALPREP and OPENPREP (spec/41_derive.md R105 to R108), with the priority of
spec/60_exceptions.md R138.
-/

namespace Sys2Proof.Machine

/-- SEALPREP's body (R105). Its errors change nothing but ERR (R106). -/
def sealprepBody (dlen : BitVec 8) (x : Xde) : Body :=
  if x.keyed = false then raise .notKeyed x
  else if dlen.toNat ≠ Config.nonceSize then raise .invalidNonce x
  else handOff .sealMode 0#40 x

/-- OPENPREP's body: the nonce is checked before the ciphertext length (R107, R108). -/
def openprepBody (dlen : BitVec 8) (ctlen : BitVec 40) (x : Xde) : Body :=
  if x.keyed = false then raise .notKeyed x
  else if dlen.toNat ≠ Config.nonceSize then raise .invalidNonce x
  else if ctlen.toNat < Config.tagOverhead then raise .invalidCiphertext x
  else handOff .openMode (bodyLength ctlen) x

/-- The completion step of SEALPREP (R105, R116). -/
def execSealprep (dlen : BitVec 8) (s : State) : Result := complete (sealprepBody dlen) s

/-- The completion step of OPENPREP (R107, R116). -/
def execOpenprep (dlen : BitVec 8) (ctlen : BitVec 40) (s : State) : Result :=
  complete (openprepBody dlen ctlen) s

end Sys2Proof.Machine
end

