-- ==== Sys2Proof/Machine/Double.lean ====
section
/-!
DEFINITION. DBL, the host's test access to the doubling unit (spec/40_subkey.md R91 to R93).
-/

namespace Sys2Proof.Machine

/-- DBL's body: it needs no key and reads only its data operand (R91, R93); a failed DBL leaves no stale
RESULT (R92). -/
def dblBody (dlen : BitVec 8) (x : Xde) : Body :=
  if dlen.toNat ≠ Config.blockSize then raise .invalidBlock x.dropResult
  else succeed (x.setResult (dbl128 x.blockOperand)) []

/-- The completion step of DBL (R91, R116). -/
def execDbl (dlen : BitVec 8) (s : State) : Result := complete (dblBody dlen) s

end Sys2Proof.Machine
end

