-- ==== Sys2Proof/Machine/Key.lean ====
section
/-!
DEFINITION. LDKEY (spec/40_subkey.md R87 to R90).
-/

namespace Sys2Proof.Machine

/-- LDKEY's body (R87). A failed load drops the key instance and enciphers nothing (R88); the AEAD
registers and RESULT are left alone either way (R90). -/
def ldkeyBody (dlen : BitVec 8) (x : Xde) : Body :=
  if dlen.toNat ≠ Config.keySize then raise .invalidKey x.dropKey
  else
    let k := x.keyOperand
    succeed (x.loadKey k (subkeyOf k)) [zeroBlockRequest k]

/-- The completion step of LDKEY (R87, R116). -/
def execLdkey (dlen : BitVec 8) (s : State) : Result := complete (ldkeyBody dlen) s

end Sys2Proof.Machine
end

