-- ==== Sys2Proof/Machine/Reads.lean ====
section
/-!
DEFINITION. The host read port (spec/42_control.md R119, R120). A read is no command: it is never latched
and changes no state of XDE (spec/20_memory.md R57).
-/

namespace Sys2Proof.Machine

/-- RD STATUS: `zext_128(STATUS)` (R119). -/
def execRdStatus (s : State) : Result := respond (zext128 s.xde.status) s

/-- RD PARAM: `zext_128(PARAM)` (R119). -/
def execRdParam (s : State) : Result := respond (zext128 paramReg) s

/-- RD RESULT: `RDATA[i] = RESULT[i]` (R54, R119). -/
def execRdResult (s : State) : Result := respond s.xde.result s

/-- Selector 0b11: 128 zero bits (R120). -/
def execRdReserved (s : State) : Result := respond (zeroBytes 16) s

end Sys2Proof.Machine
end

