-- ==== Sys2Proof/Machine/Dispatch.lean ====
section
/-!
DEFINITION. One arm per instruction: the completion step of a command (spec/42_control.md R116), the
answer of a host read (R119).
-/

namespace Sys2Proof.Machine

def exec (i : Instr) (s : State) : Host.Outcome State Fault Refusal :=
  match i with
  | .ldkey dlen => Sys2Proof.Machine.execLdkey dlen s
  | .sealprep dlen => Sys2Proof.Machine.execSealprep dlen s
  | .openprep dlen ctlen => Sys2Proof.Machine.execOpenprep dlen ctlen s
  | .dbl dlen => Sys2Proof.Machine.execDbl dlen s
  | .clr => Sys2Proof.Machine.execClr s
  | .rdStatus => Sys2Proof.Machine.execRdStatus s
  | .rdParam => Sys2Proof.Machine.execRdParam s
  | .rdResult => Sys2Proof.Machine.execRdResult s
  | .rdReserved => Sys2Proof.Machine.execRdReserved s
  | .illegal word => Sys2Proof.Machine.execIllegal word s

end Sys2Proof.Machine
end

