-- ==== Sys2Proof/Machine/Turns.lean ====
section
/-!
DEFINITION. Whose step comes next and what it does (spec/60_exceptions.md R139: one step at a time, in any
order the enabling conditions allow; log entry 9), and how the host's table words are placed.
-/

namespace Sys2Proof.Machine

/-- The engine's turn: COMPLETE, enabled exactly when BUSY = 1, runs the latched command (R116). With
BUSY = 0 the engine has no step (R165). -/
def engineTurn (s : State) : Result :=
  if s.xde.busy then exec (decode (.command s.xde.latchW)) s else idleStep s

/-- The host's turn: the item its program stands at. WAIT is a read of STATUS that the host repeats while it
shows BUSY = 1 (R76). -/
def hostTurn (s : State) : Result :=
  match s.host with
  | [] => idleStep s
  | .present w d :: rest => presentStep w d rest s
  | .read rsel :: rest => exec (decode (.read rsel)) { s with host := rest }
  | .wait :: rest =>
    exec (decode (.read 0b00#2)) { s with host := if s.xde.busy then .wait :: rest else rest }

/-- One turn. -/
def runTurn (t : Turn) (s : State) : Result :=
  match t with
  | .host => hostTurn s
  | .withdraw => withdrawStep s
  | .consumer => ackStep s
  | .engine => engineTurn s
  | .reset => resetStep s

/-- Whose turn it is: the one scheduled; with none scheduled the engine's while BUSY = 1, so that a
completion that stays enabled is taken (R158), and else the host's (DESIGN CHOICE, unsafe, log entry 2). -/
def State.turnNow (s : State) : Turn :=
  match s.turns with
  | [] => if s.xde.busy then .engine else .host
  | t :: _ => t

/-- The next step: the turn now, which is then used up. -/
def turn (s : State) : Result := runTurn s.turnNow { s with turns := s.turns.tail }

/-- The state in which the next step runs the instruction of an encoding: a command word is the one
accepted (latched as R117 does, with its DLEN data bytes all zero) and the engine is next; a selector is
the host's next read. DESIGN CHOICE, log entry 8. -/
def place (e : Encoding) (s : State) : State :=
  match e with
  | .command w =>
    { s with
      xde := s.xde.accept w (List.replicate (dlenField w).toNat 0#8)
      turns := .engine :: s.turns }
  | .read rsel => { s with host := .read rsel :: s.host, turns := .host :: s.turns }

end Sys2Proof.Machine
end

