-- ==== Sys2Proof/Machine/Step.lean ====
section
/-!
DEFINITION. The step of the machine, and the placing of an opcode-table word for the host. Everything they
do stands in Machine/Turns.lean and Decode.lean.
-/

namespace Sys2Proof.Machine

/-- One step: one agent's turn (R139). -/
def step (s : State) : Host.Outcome State Fault Refusal := turn s

/-- `s` with the instruction of an opcode-table row placed so that the next step runs exactly it. Bits
that are no selector and no command word place nothing. -/
def State.withFetchWord (s : State) (nbits w : Nat) : State :=
  match tableEncoding nbits w with
  | some e => place e s
  | none => s

end Sys2Proof.Machine
end

