-- ==== Sys2Proof/Machine/Assembler.lean ====
section
/-!
DEFINITION. The assembler notation of spec/30_encoding.md R75 and the pseudo-instructions of R76, as the
host's program they stand for. It belongs to the host, not to XDE (spec/10_state.md R22).
-/

namespace Sys2Proof.Machine

/-- A line of a program listing (R75, R76). -/
inductive AsmLine where
  | ldkey (key : List Byte)
  | sealprep (nonce : List Byte)
  | openprep (nonce : List Byte) (ctlen : Nat)
  | dbl (blk : List Byte)
  | clr
  /-- `.word w data=…`: any raw word. -/
  | word (w : CommandWord) (data : List Byte)
  | rdStatus
  | rdParam
  | rdResult
  /-- The GCM consumer's acknowledge; no host command (R75, R121). -/
  | ack
  /-- WAIT: repeat RD STATUS until BUSY = 0 (R76). -/
  | wait
  /-- REKEY = CLR ; WAIT ; LDKEY ; WAIT (R76). -/
  | rekey (key : List Byte)
  deriving DecidableEq, Repr

/-- What a line becomes: items of the host's program, and the turns the line schedules. -/
structure Listing where
  host : List HostMove
  turns : List Turn
  deriving DecidableEq, Repr

/-- One listing after another. -/
def Listing.andThen (a b : Listing) : Listing := ⟨a.host ++ b.host, a.turns ++ b.turns⟩

/-- A command with its data: DLEN is computed from the operand's length (R75), the word by R68. `none`
where a field cannot hold the length: DLEN has 8 bits, CTLEN 40. -/
def assembleCommand (opc : BitVec 4) (data : List Byte) (ctlen : Nat) : Option Listing :=
  if data.length < 2 ^ 8 ∧ ctlen < 2 ^ 40 then
    some ⟨[.present
      (assembleWord opc 0#12 (BitVec.ofNat 8 data.length) (BitVec.ofNat 40 ctlen)) data], [.host]⟩
  else none

/-- WAIT: the host polls STATUS until BUSY = 0 (R76). The turns scheduled are the engine's and then the
host's read (DESIGN CHOICE, safe, log entry 10). -/
def waitListing : Listing := ⟨[.wait], [.engine, .host]⟩

/-- What one line stands for (R75, R76). A raw word whose data are not DLEN bytes is no move of the host
(R160). That a line of an agent schedules one turn of it is the model's choice (log entry 10). REKEY is given
by R76 for a key of 32 bytes only; that it expands in the same way, to CLR ; WAIT ; LDKEY ; WAIT, for a key of
any other length from 0 to 255 is the model's choice (DESIGN CHOICE, safe, log entry 13). -/
def assemble : AsmLine → Option Listing
  | .ldkey key => assembleCommand 0x1#4 key 0
  | .sealprep nonce => assembleCommand 0x2#4 nonce 0
  | .openprep nonce ctlen => assembleCommand 0x3#4 nonce ctlen
  | .dbl blk => assembleCommand 0x4#4 blk 0
  | .clr => assembleCommand 0x5#4 [] 0
  | .word w data =>
    if data.length = (dlenField w).toNat then some ⟨[.present w data], [.host]⟩ else none
  | .rdStatus => some ⟨[.read 0b00#2], [.host]⟩
  | .rdParam => some ⟨[.read 0b01#2], [.host]⟩
  | .rdResult => some ⟨[.read 0b10#2], [.host]⟩
  | .ack => some ⟨[], [.consumer]⟩
  | .wait => some waitListing
  | .rekey key => do
    let clear ← assembleCommand 0x5#4 [] 0
    let load ← assembleCommand 0x1#4 key 0
    return ((clear.andThen waitListing).andThen load).andThen waitListing

end Sys2Proof.Machine
end

