-- ==== Sys2Proof/Safety.lean ====
section
/-!
DEFINITION. The terms in which claims about runs are stated: the invariants of spec/10_state.md R44 with
those the acceptance rules add, what a host can tell of a state (spec/60_exceptions.md R142), the host's
duty (spec/70_reset_and_hazards.md R160), and the end of a run (R164).
-/

namespace Sys2Proof.Machine

/-- The invariants of XDE at every step boundary. -/
structure Xde.Inv (x : Xde) : Prop where
  /-- R44 (a). -/
  unkeyedZero : x.keyed = false → x.mk = zeroBytes 32 ∧ x.k1 = zeroBytes 16
  /-- R44 (b). -/
  keyedSubkey : x.keyed = true → x.k1 = subkeyOf x.mk
  /-- R44 (c). -/
  noHandOffZero : x.aead.valid = false → x.aead = Aead.zero
  /-- R44 (d). -/
  noResultZero : x.resValid = false → x.result = zeroBytes 16
  /-- R44 (e). -/
  idleLatchClear : x.busy = false → x.latchW = 0#64 ∧ x.latchD = []
  /-- R44 (f), without "the MK that was current when": one DERIVE of one key and its subkey, one nonce
  (DEDUCED, safe, log entry 12). -/
  handOffDerived : x.aead.valid = true →
    ∃ (mk : Bytes 32) (n : Bytes 24), (x.aead.key, x.aead.iv) = derive mk (subkeyOf mk) n
  /-- AEAD_BODYLEN is 0 for seal (R33). -/
  sealNoBody : x.aead.mode = .sealMode → x.aead.bodylen = 0#40
  /-- The latched data are DLEN bytes (R36, R50). -/
  latchCount : x.busy = true → x.latchD.length = (dlenField x.latchW).toNat
  /-- ERR reads 0 while BUSY (R119, R156). -/
  busyNoErr : x.busy = true → x.err = .ok
  /-- No SEALPREP or OPENPREP opcode is in flight while a hand-off is pending (R37, R121). -/
  heldNotInFlight : x.busy = true → heldByHandOff x.latchW = true → x.aead.valid = false

/-- `w` with data `d` or `d'` looks the same to a host that cannot read XDE's secrets: as many bytes, and
the same bytes where the command is DBL, whose data reach RESULT. -/
def DataLike (w : CommandWord) (d d' : List Byte) : Prop :=
  d.length = d'.length ∧ ∀ n, decodeCommand w = .dbl n → d = d'

/-- Two items of a host's program that differ at most in key and nonce bytes. -/
def MoveLike : HostMove → HostMove → Prop
  | .present w d, .present w' d' => w = w' ∧ DataLike w d d'
  | m, m' => m = m'

/-- What of a step's outputs the host sees: CMD_READY and RDATA, never the AES port (R142). -/
def hostView : Output → Output
  | .aes _ => .quiet
  | o => o

/-- Two states that differ at most in secrets: MK, K1, AEAD_KEY, AEAD_IV, key and nonce bytes latched or
still to come, and the traffic on the AES port. -/
structure SameToHost (s t : State) : Prop where
  keyed : s.xde.keyed = t.xde.keyed
  busy : s.xde.busy = t.xde.busy
  err : s.xde.err = t.xde.err
  resValid : s.xde.resValid = t.xde.resValid
  result : s.xde.result = t.xde.result
  aeadValid : s.xde.aead.valid = t.xde.aead.valid
  aeadMode : s.xde.aead.mode = t.xde.aead.mode
  aeadBodylen : s.xde.aead.bodylen = t.xde.aead.bodylen
  latchW : s.xde.latchW = t.xde.latchW
  latchD : DataLike s.xde.latchW s.xde.latchD t.xde.latchD
  host : List.Forall₂ MoveLike s.host t.host
  turns : s.turns = t.turns
  out : hostView s.out = hostView t.out

/-- XDE after an idle XDE has accepted and completed one command (R116, R117). -/
def completeCommand (w : CommandWord) (d : List Byte) (x : Xde) : Xde :=
  match exec (decode (.command w)) ⟨x.accept w d, [], [], .quiet⟩ with
  | .next t => t.xde
  | .fault _ => x
  | .refused _ => x

/-- What a step does that a reader of the run can name: a command accepted or completed, a hand-off
acknowledged, a reset (R139). Reads, held presentations and turns with nothing to do are none. -/
inductive Event where
  | accepted (word : CommandWord) (data : List Byte)
  | completed (word : CommandWord) (data : List Byte)
  | acknowledged
  | wasReset
  deriving DecidableEq, Repr

/-- The event of the next step, if it has one. -/
def State.nextEvent (s : State) : List Event :=
  match s.turnNow with
  | .engine => if s.xde.busy then [.completed s.xde.latchW s.xde.latchD] else []
  | .consumer => if s.xde.aead.valid then [.acknowledged] else []
  | .reset => [.wasReset]
  | .withdraw => []
  | .host =>
    match s.host with
    | .present w d :: _ => if s.xde.cmdReady w then [.accepted w d] else []
    | _ => []

/-- The events of a run of `k` steps, in order. -/
def State.events : Nat → State → List Event
  | 0, _ => []
  | k + 1, s =>
    s.nextEvent ++ match step s with
      | .next t => t.events k
      | .fault _ => []
      | .refused _ => []

/-- What an event does to XDE when commands are taken one at a time: a completion is the whole command, an
acceptance is nothing by itself, an acknowledge and a reset act as R121 and R150 say. The fold of this
function is the sequential reading of XDE (R59). -/
def applyEvent (x : Xde) : Event → Xde
  | .accepted _ _ => x
  | .completed w d => completeCommand w d x
  | .acknowledged => x.dropAead
  | .wasReset => Xde.reset

/-- The command of an acceptance. -/
def Event.acceptedCommand : Event → Option (CommandWord × List Byte)
  | .accepted w d => some (w, d)
  | .completed _ _ => none
  | .acknowledged => none
  | .wasReset => none

/-- The command of a completion. -/
def Event.completedCommand : Event → Option (CommandWord × List Byte)
  | .accepted _ _ => none
  | .completed w d => some (w, d)
  | .acknowledged => none
  | .wasReset => none

/-- The host keeps its duty on the data count in all it still presents (R160). -/
def HostKeepsCount (host : List HostMove) : Prop :=
  ∀ w d, HostMove.present w d ∈ host → dataCountOk w d = true

/-- The end of a run of a host program: the host has presented its last command and made its final reads, and
BUSY = 0 (R164). A host that is held still has a command to present, so its run has not ended. It says nothing
of the GCM consumer. -/
def State.ended (s : State) : Bool := s.host.isEmpty && !s.xde.busy

/-- The host is held by a hand-off: XDE is idle, the command the host presents is a SEALPREP or OPENPREP
opcode, and AEAD_VALID = 1 (R118, R157). -/
def State.heldByPending (s : State) : Bool :=
  !s.xde.busy && s.xde.aead.valid &&
    match s.host with
    | .present w _ :: _ => heldByHandOff w
    | _ => false

/-- The final observation (R164): STATUS, RESULT, KEYED and the AEAD registers with AEAD_VALID. -/
structure Observation where
  status : BitVec 32
  result : Block
  keyed : Bool
  aead : Aead
  deriving DecidableEq, Repr

/-- What is observed at a step boundary that ends a run (R164). -/
def State.observe (s : State) : Observation :=
  ⟨s.xde.status, s.xde.result, s.xde.keyed, s.xde.aead⟩

end Sys2Proof.Machine
end

