-- ==== Sys2Proof/Certificates/Slice0/Obligations.lean ====
section
/-!
DEFINITION. The statements for the provers, in the order of OBLIGATIONS.json. Fields of a command word are
written here by division on the word's value (spec/30_encoding.md R63), apart from the model's own field
functions. Register writes are stated as the whole next state, so that each statement is also its frame.
-/

open Sys2Proof Sys2Proof.Machine

/-! ### Encoding (30_encoding.md) -/

/-- R78: decoding an encoded command gives it back, and encoding a decoded word gives the word back; an
illegal word keeps its raw word. For every instruction and every encoding. -/
def Obligations.DecodeEncodeRoundTrip : Prop :=
  (∀ i : Instr, i.wf = true → decode (encode i) = i) ∧ (∀ e : Encoding, encode (decode e) = e)

/-- Decoding never gives a term that stands for no instruction. -/
def Obligations.DecodedIsWellFormed : Prop := ∀ e : Encoding, (decode e).wf = true

/-- R70: a word selects a command exactly when `W & mask = match`, with the free fields of the row; a word
that matches no row is ILLEGAL; no two rows match the same word. -/
def Obligations.MatchAndMaskSelect : Prop :=
  ∀ w : CommandWord,
    (w &&& 0xFFFF00FFFFFFFFFF#64 = 0x1000000000000000#64 ↔
      decodeCommand w = .ldkey (w.extractLsb' 40 8)) ∧
    (w &&& 0xFFFF00FFFFFFFFFF#64 = 0x2000000000000000#64 ↔
      decodeCommand w = .sealprep (w.extractLsb' 40 8)) ∧
    (w &&& 0xFFFF000000000000#64 = 0x3000000000000000#64 ↔
      decodeCommand w = .openprep (w.extractLsb' 40 8) (w.extractLsb' 0 40)) ∧
    (w &&& 0xFFFF00FFFFFFFFFF#64 = 0x4000000000000000#64 ↔
      decodeCommand w = .dbl (w.extractLsb' 40 8)) ∧
    (w &&& 0xFFFFFFFFFFFFFFFF#64 = 0x5000000000000000#64 ↔ decodeCommand w = .clr) ∧
    ((∀ r ∈ commandRows, r.selects w = false) ↔ decodeCommand w = .illegal w) ∧
    (commandRows.filter (·.selects w)).length ≤ 1

/-- R71's list: exactly these words are illegal. -/
def Obligations.IllegalWordsAreTheListedOnes : Prop :=
  ∀ w : CommandWord,
    decodeCommand w = .illegal w ↔
      (w.toNat / 2 ^ 60 = 0 ∨ 6 ≤ w.toNat / 2 ^ 60 ∨ w.toNat / 2 ^ 48 % 2 ^ 12 ≠ 0 ∨
        ((w.toNat / 2 ^ 60 = 1 ∨ w.toNat / 2 ^ 60 = 2 ∨ w.toNat / 2 ^ 60 = 4) ∧ w.toNat % 2 ^ 40 ≠ 0) ∨
        (w.toNat / 2 ^ 60 = 5 ∧ (w.toNat / 2 ^ 40 % 2 ^ 8 ≠ 0 ∨ w.toNat % 2 ^ 40 ≠ 0)))

/-- R68: the assembly of a word from its fields, as a number. -/
def Obligations.WordIsAssembledFromFields : Prop :=
  ∀ (opc : BitVec 4) (rsv : BitVec 12) (dlen : BitVec 8) (ctlen : BitVec 40),
    (assembleWord opc rsv dlen ctlen).toNat =
      opc.toNat * 2 ^ 60 + rsv.toNat * 2 ^ 48 + dlen.toNat * 2 ^ 40 + ctlen.toNat

/-- All the words of 95_test_vectors.md T-DEC decode as listed there: the twelve written in full, then the row
0x6000000000000000 ... 0xF000000000000000 as the ten words of an opcode from 6 on with every other field zero, its
two ends written out too; and the four read selectors as R74 lists them. -/
def Obligations.WrittenOutWordsDecode : Prop :=
  decodeCommand 0x1000200000000000#64 = .ldkey 32#8 ∧
  decodeCommand 0x1000FF0000000000#64 = .ldkey 255#8 ∧
  decodeCommand 0x1000200000000001#64 = .illegal 0x1000200000000001#64 ∧
  decodeCommand 0x2000180000000000#64 = .sealprep 24#8 ∧
  decodeCommand 0x300018000000001C#64 = .openprep 24#8 28#40 ∧
  decodeCommand 0x300000FFFFFFFFFF#64 = .openprep 0#8 0xFFFFFFFFFF#40 ∧
  decodeCommand 0x4000100000000000#64 = .dbl 16#8 ∧
  decodeCommand 0x5000000000000000#64 = .clr ∧
  decodeCommand 0x5000000000000001#64 = .illegal 0x5000000000000001#64 ∧
  decodeCommand 0x5800000000000000#64 = .illegal 0x5800000000000000#64 ∧
  decodeCommand 0x1100200000000000#64 = .illegal 0x1100200000000000#64 ∧
  decodeCommand 0x0000000000000000#64 = .illegal 0x0000000000000000#64 ∧
  (∀ opc : BitVec 4, 6 ≤ opc.toNat →
    decodeCommand (assembleWord opc 0#12 0#8 0#40) = .illegal (assembleWord opc 0#12 0#8 0#40)) ∧
  decodeCommand 0x6000000000000000#64 = .illegal 0x6000000000000000#64 ∧
  decodeCommand 0xF000000000000000#64 = .illegal 0xF000000000000000#64 ∧
  decodeRead 0b00#2 = .rdStatus ∧ decodeRead 0b01#2 = .rdParam ∧
  decodeRead 0b10#2 = .rdResult ∧ decodeRead 0b11#2 = .rdReserved

/-- R75: the assembler computes DLEN from the operand's length. Every presentation it makes keeps the host's
duty on the data count, and the words it makes decode to the command written. That a line also schedules one turn
of the host is the model's choice (log entry 10). -/
def Obligations.AssemblerWritesTheCommand : Prop :=
  ∀ (bytes : List Byte) (ctlen : Nat), bytes.length < 2 ^ 8 → ctlen < 2 ^ 40 →
    (∃ w, assemble (.ldkey bytes) = some ⟨[.present w bytes], [.host]⟩ ∧
      decodeCommand w = .ldkey (BitVec.ofNat 8 bytes.length) ∧ dataCountOk w bytes = true) ∧
    (∃ w, assemble (.sealprep bytes) = some ⟨[.present w bytes], [.host]⟩ ∧
      decodeCommand w = .sealprep (BitVec.ofNat 8 bytes.length) ∧ dataCountOk w bytes = true) ∧
    (∃ w, assemble (.openprep bytes ctlen) = some ⟨[.present w bytes], [.host]⟩ ∧
      decodeCommand w = .openprep (BitVec.ofNat 8 bytes.length) (BitVec.ofNat 40 ctlen) ∧
      dataCountOk w bytes = true) ∧
    (∃ w, assemble (.dbl bytes) = some ⟨[.present w bytes], [.host]⟩ ∧
      decodeCommand w = .dbl (BitVec.ofNat 8 bytes.length) ∧ dataCountOk w bytes = true) ∧
    (∃ w, assemble .clr = some ⟨[.present w []], [.host]⟩ ∧
      decodeCommand w = .clr ∧ dataCountOk w [] = true)

/-! ### The doubling unit (40_subkey.md) and the big-endian value (00_scope.md) -/

/-- R11: be128 is the big-endian sum, bytes128 its inverse, and the end bits sit where R11 says. -/
def Obligations.BigEndianBlockValue : Prop :=
  (∀ B : Block,
    (be128 B).toNat = ∑ i : Fin 16, B[i].toNat * 2 ^ (8 * (15 - i.val)) ∧
    bytes128 (be128 B) = B ∧
    (be128 B).getLsbD 127 = B[0].getLsbD 7 ∧
    (be128 B).getLsbD 0 = B[15].getLsbD 0) ∧
  (∀ v : BitVec 128, be128 (bytes128 v) = v)

/-- R79: the doubled block as a number: shifted left by one, the top bit out as carry, 0x87 XORed in with
carry 1. -/
def Obligations.DoublingShiftsAndReduces : Prop :=
  ∀ B : Block,
    (be128 (dbl128 B)).toNat =
      if 2 ^ 127 ≤ (be128 B).toNat then (2 * (be128 B).toNat % 2 ^ 128) ^^^ 0x87
      else 2 * (be128 B).toNat

/-- R80: the byte form. -/
def Obligations.DoublingByteForm : Prop :=
  ∀ B : Block,
    (∀ (i : Nat) (h : i < 15), (dbl128 B)[i] = (B[i] <<< 1) ||| (B[i + 1] >>> 7)) ∧
    (dbl128 B)[15] = (B[15] <<< 1) ^^^ (if B[0] >>> 7 = 1#8 then 0x87#8 else 0x00#8)

/-- R81: the six laws. -/
def Obligations.DoublingLaws : Prop :=
  dbl128 (zeroBytes 16) = zeroBytes 16 ∧
  (∀ a b : Block, dbl128 (xorBytes a b) = xorBytes (dbl128 a) (dbl128 b)) ∧
  (Function.Bijective dbl128 ∧
    ∀ B : Block, be128 B =
      if (be128 (dbl128 B)).getLsbD 0 then
        ((be128 (dbl128 B) ^^^ 0x87#128) >>> 1) ||| (1#128 <<< 127)
      else be128 (dbl128 B) >>> 1) ∧
  (∀ B : Block, B[0].toNat < 0x80 → (be128 (dbl128 B)).toNat = 2 * (be128 B).toNat) ∧
  (∀ B : Block, 0x80 ≤ B[0].toNat →
    (be128 (dbl128 B)).toNat = (2 * (be128 B).toNat - 2 ^ 128) ^^^ 0x87) ∧
  (∀ B : Block, (dbl128 B)[15].toNat % 2 = 1 ↔ (be128 B).getLsbD 127 = true)

/-! ### Derivation (41_derive.md) -/

/-- R102: the derived key and the IV, byte for byte. `x1` and `x2` are the blocks R98 to R100 describe. -/
def Obligations.DeriveKeyAndIv : Prop :=
  ∀ (mk : Bytes 32) (k1 x1 x2 : Block) (n : Bytes 24),
    x1[0] = 0x00#8 ^^^ k1[0] → x1[1] = 0x01#8 ^^^ k1[1] → x1[2] = 0x58#8 ^^^ k1[2] →
    x1[3] = 0x00#8 ^^^ k1[3] → (∀ (i : Nat) (h : i < 12), x1[4 + i] = n[i] ^^^ k1[4 + i]) →
    x2[0] = 0x00#8 ^^^ k1[0] → x2[1] = 0x02#8 ^^^ k1[1] → x2[2] = 0x58#8 ^^^ k1[2] →
    x2[3] = 0x00#8 ^^^ k1[3] → (∀ (i : Nat) (h : i < 12), x2[4 + i] = n[i] ^^^ k1[4 + i]) →
    (∀ (i : Nat) (h : i < 16), (derive mk k1 n).1[i] = (Config.aes256Enc mk x1)[i]) ∧
    (∀ (i : Nat) (h : i < 16), (derive mk k1 n).1[16 + i] = (Config.aes256Enc mk x2)[i]) ∧
    (∀ (i : Nat) (h : i < 12), (derive mk k1 n).2[i] = n[12 + i])

/-- R110 (a) to (d). The premise of (c), that AES256_ENC(MK, ·) is a permutation, is the rule's own: it names
a property of the parameter of R7, which has no body in the model. -/
def Obligations.DerivationLaws : Prop :=
  (∀ (mk : Bytes 32) (k1 : Block) (n n' : Bytes 24),
    (∀ (i : Nat) (h : i < 12), n[i] = n'[i]) → (derive mk k1 n).1 = (derive mk k1 n').1) ∧
  (∀ (mk mk' : Bytes 32) (k1 k1' : Block) (n n' : Bytes 24),
    (∀ (i : Nat) (h : i < 12), n[12 + i] = n'[12 + i]) → (derive mk k1 n).2 = (derive mk' k1' n').2) ∧
  (∀ (mk : Bytes 32) (k1 : Block) (n : Bytes 24),
    (∀ (i : Nat) (h : i < 16), i ≠ 1 → (requestLo mk k1 n).block[i] = (requestHi mk k1 n).block[i]) ∧
    (requestLo mk k1 n).block[1] ^^^ (requestHi mk k1 n).block[1] = 0x03#8 ∧
    (requestLo mk k1 n).block ≠ (requestHi mk k1 n).block ∧
    (Function.Bijective (Config.aes256Enc mk) →
      ∃ (i : Nat) (h : i < 16), (derive mk k1 n).1[i] ≠ (derive mk k1 n).1[16 + i]) ∧
    (requestLo mk k1 n).block[0] = k1[0] ∧
    (requestLo mk k1 n).block[2] = k1[2] ^^^ 0x58#8 ∧
    (requestLo mk k1 n).block[3] = k1[3])

/-! ### Commands: result, completion and frame -/

/-- R87, the successful load: MK is the 32 data bytes in order, K1 = DBL128(AES256_ENC(MK, 0^128)), KEYED 1,
ERR 0, one block presented to the AES core; the latch is cleared and BUSY 0; nothing else changes. -/
def Obligations.LdkeyLoadsKeyAndSubkey : Prop :=
  ∀ (s : State) (key : Bytes 32), s.xde.latchD = key.toList →
    exec (.ldkey 32#8) s = .next
      { s with
        xde := { s.xde with
          mk := key
          k1 := dbl128 (Config.aes256Enc key (Vector.replicate 16 0#8))
          keyed := true
          err := .ok
          busy := false
          latchW := 0#64
          latchD := [] }
        out := .aes [⟨key, Vector.replicate 16 0#8⟩] }

/-- R88: any other length zeroes MK and K1, clears KEYED, reports INVALID_KEY and enciphers nothing; the
AEAD registers and RESULT keep their values (R90), and a SEALPREP or OPENPREP accepted next reports
NOT_KEYED. -/
def Obligations.LdkeyFailureDropsTheKey : Prop :=
  ∀ (s : State) (dlen : BitVec 8), dlen.toNat ≠ 32 →
    exec (.ldkey dlen) s = .next
      { s with
        xde := { s.xde with
          mk := Vector.replicate 32 0#8
          k1 := Vector.replicate 16 0#8
          keyed := false
          err := .invalidKey
          busy := false
          latchW := 0#64
          latchD := [] }
        out := .aes [] } ∧
    ∀ (t u : State) (i : Instr) (w : CommandWord) (d : List Byte) (n : BitVec 8) (ctlen : BitVec 40),
      exec (.ldkey dlen) s = .next t → i = .sealprep n ∨ i = .openprep n ctlen →
      exec i { t with xde := t.xde.accept w d } = .next u → u.xde.err = .notKeyed

/-- R105, the successful SEALPREP: one hand-off in mode seal with DERIVE's key and IV and BODYLEN 0, two
blocks presented to the AES core under MK; nothing else changes. That the AES port shows X1 before X2 is the
model's choice (DESIGN CHOICE, log entry 3): R101 calls the order unobservable. -/
def Obligations.SealprepHandsOff : Prop :=
  ∀ (s : State) (n : Bytes 24), s.xde.keyed = true → s.xde.latchD = n.toList →
    exec (.sealprep 24#8) s = .next
      { s with
        xde := { s.xde with
          aead := ⟨true, .sealMode, (derive s.xde.mk s.xde.k1 n).1, (derive s.xde.mk s.xde.k1 n).2, 0#40⟩
          err := .ok
          busy := false
          latchW := 0#64
          latchD := [] }
        out := .aes [requestLo s.xde.mk s.xde.k1 n, requestHi s.xde.mk s.xde.k1 n] }

/-- R107, the successful OPENPREP: as SEALPREP, in mode open with BODYLEN = CTLEN - 16. That the AES port shows
X1 before X2 is the model's choice (DESIGN CHOICE, log entry 3): R101 calls the order unobservable. -/
def Obligations.OpenprepHandsOff : Prop :=
  ∀ (s : State) (n : Bytes 24) (ctlen : BitVec 40),
    s.xde.keyed = true → s.xde.latchD = n.toList → 16 ≤ ctlen.toNat →
    exec (.openprep 24#8 ctlen) s = .next
      { s with
        xde := { s.xde with
          aead := ⟨true, .openMode, (derive s.xde.mk s.xde.k1 n).1, (derive s.xde.mk s.xde.k1 n).2,
            BitVec.ofNat 40 (ctlen.toNat - 16)⟩
          err := .ok
          busy := false
          latchW := 0#64
          latchD := [] }
        out := .aes [requestLo s.xde.mk s.xde.k1 n, requestHi s.xde.mk s.xde.k1 n] }

/-- R106 and the error part of R107: a SEALPREP or OPENPREP in error changes nothing but ERR (and the latch
and BUSY, as every completion), and enciphers nothing; NOT_KEYED before INVALID_NONCE before
INVALID_CIPHERTEXT. -/
def Obligations.PrepErrorsLeaveNoOutput : Prop :=
  ∀ (s : State) (dlen : BitVec 8) (ctlen : BitVec 40) (e : ErrCode),
    (s.xde.keyed = false ∧ e = .notKeyed ∨ s.xde.keyed = true ∧ dlen.toNat ≠ 24 ∧ e = .invalidNonce →
      exec (.sealprep dlen) s = .next
        { s with
          xde := { s.xde with err := e, busy := false, latchW := 0#64, latchD := [] }
          out := .aes [] }) ∧
    (s.xde.keyed = false ∧ e = .notKeyed ∨ s.xde.keyed = true ∧ dlen.toNat ≠ 24 ∧ e = .invalidNonce ∨
        s.xde.keyed = true ∧ dlen.toNat = 24 ∧ ctlen.toNat < 16 ∧ e = .invalidCiphertext →
      exec (.openprep dlen ctlen) s = .next
        { s with
          xde := { s.xde with err := e, busy := false, latchW := 0#64, latchD := [] }
          out := .aes [] })

/-- R91, the successful DBL: RESULT is the doubled data block and RES_VALID 1, keyed or not; nothing else
changes and nothing is enciphered. -/
def Obligations.DblDoublesTheBlock : Prop :=
  ∀ (s : State) (blk : Block), s.xde.latchD = blk.toList →
    exec (.dbl 16#8) s = .next
      { s with
        xde := { s.xde with
          result := dbl128 blk
          resValid := true
          err := .ok
          busy := false
          latchW := 0#64
          latchD := [] }
        out := .aes [] }

/-- R92: any other length zeroes RESULT, clears RES_VALID and reports INVALID_BLOCK. -/
def Obligations.DblFailureLeavesNoResult : Prop :=
  ∀ (s : State) (dlen : BitVec 8), dlen.toNat ≠ 16 →
    exec (.dbl dlen) s = .next
      { s with
        xde := { s.xde with
          result := Vector.replicate 16 0#8
          resValid := false
          err := .invalidBlock
          busy := false
          latchW := 0#64
          latchD := [] }
        out := .aes [] }

/-- R114: CLR leaves XDE in the reset state, with STATUS 0, and a SEALPREP or OPENPREP after it reports
NOT_KEYED. -/
def Obligations.ClrLeavesTheResetState : Prop :=
  ∀ s : State,
    exec .clr s = .next { s with xde := Xde.reset, out := .aes [] } ∧
    Xde.reset.status = 0#32 ∧
    ∀ (t u : State) (i : Instr) (w : CommandWord) (d : List Byte) (dlen : BitVec 8) (ctlen : BitVec 40),
      exec .clr s = .next t → i = .sealprep dlen ∨ i = .openprep dlen ctlen →
      exec i { t with xde := t.xde.accept w d } = .next u → u.xde.err = .notKeyed

/-- R115: an illegal word completes with ILLEGAL_COMMAND and changes nothing else. -/
def Obligations.IllegalReportsOnlyTheError : Prop :=
  ∀ (s : State) (w : CommandWord),
    exec (.illegal w) s = .next
      { s with
        xde := { s.xde with err := .illegalCommand, busy := false, latchW := 0#64, latchD := [] }
        out := .aes [] }

/-- R119: what each selector returns, with no state of XDE changed. -/
def Obligations.HostReadsReturnTheRegister : Prop :=
  ∀ s : State,
    (∃ v : Block, exec .rdStatus s = .next { s with out := .rdata v } ∧
      be128 v = s.xde.status.setWidth 128) ∧
    (∃ v : Block, exec .rdParam s = .next { s with out := .rdata v } ∧ be128 v = 0x01102018#128) ∧
    exec .rdResult s = .next { s with out := .rdata s.xde.result } ∧
    exec .rdReserved s = .next { s with out := .rdata (Vector.replicate 16 0#8) }

/-- R111: with the same key instance and nonce SEALPREP and OPENPREP hand off the same key and IV and differ
in AEAD_MODE and AEAD_BODYLEN only. -/
def Obligations.SealAndOpenHandOffTheSameKey : Prop :=
  ∀ (s t u : State) (ctlen : BitVec 40), s.xde.keyed = true → 16 ≤ ctlen.toNat →
    exec (.sealprep 24#8) s = .next t → exec (.openprep 24#8 ctlen) s = .next u →
    u.xde.aead.key = t.xde.aead.key ∧ u.xde.aead.iv = t.xde.aead.iv ∧
    u.xde = { t.xde with
      aead := { t.xde.aead with mode := u.xde.aead.mode, bodylen := u.xde.aead.bodylen } } ∧
    t.xde.aead.mode = .sealMode ∧ u.xde.aead.mode = .openMode

/-! ### Whole-machine rules over the commands -/

/-- R42 and R33, R34: a completion changes MK, K1 and KEYED only for LDKEY and CLR, the AEAD registers only
for SEALPREP, OPENPREP and CLR, RESULT and RES_VALID only for DBL and CLR; it always ends the command. -/
def Obligations.CompletionWritesOnlyItsRegisters : Prop :=
  ∀ (s t : State) (w : CommandWord), exec (decodeCommand w) s = .next t →
    ((t.xde.mk ≠ s.xde.mk ∨ t.xde.k1 ≠ s.xde.k1 ∨ t.xde.keyed ≠ s.xde.keyed) →
      w.toNat / 2 ^ 60 = 1 ∨ w.toNat / 2 ^ 60 = 5) ∧
    (t.xde.aead ≠ s.xde.aead →
      w.toNat / 2 ^ 60 = 2 ∨ w.toNat / 2 ^ 60 = 3 ∨ w.toNat / 2 ^ 60 = 5) ∧
    ((t.xde.result ≠ s.xde.result ∨ t.xde.resValid ≠ s.xde.resValid) →
      w.toNat / 2 ^ 60 = 4 ∨ w.toNat / 2 ^ 60 = 5) ∧
    t.xde.busy = false ∧ t.xde.latchW = 0#64 ∧ t.xde.latchD = [] ∧
    t.host = s.host ∧ t.turns = s.turns

/-- R138: the error a completion reports is the first that holds, in this order; 0 if none does. -/
def Obligations.FirstErrorInPriorityOrder : Prop :=
  ∀ (s t : State) (w : CommandWord), exec (decodeCommand w) s = .next t →
    t.xde.err =
      if decodeCommand w = .illegal w then .illegalCommand
      else if (w.toNat / 2 ^ 60 = 2 ∨ w.toNat / 2 ^ 60 = 3) ∧ s.xde.keyed = false then .notKeyed
      else if w.toNat / 2 ^ 60 = 1 ∧ w.toNat / 2 ^ 40 % 2 ^ 8 ≠ 32 then .invalidKey
      else if (w.toNat / 2 ^ 60 = 2 ∨ w.toNat / 2 ^ 60 = 3) ∧ w.toNat / 2 ^ 40 % 2 ^ 8 ≠ 24 then .invalidNonce
      else if w.toNat / 2 ^ 60 = 4 ∧ w.toNat / 2 ^ 40 % 2 ^ 8 ≠ 16 then .invalidBlock
      else if w.toNat / 2 ^ 60 = 3 ∧ w.toNat % 2 ^ 40 < 16 then .invalidCiphertext
      else .ok

/-- R149: the only codes each command can complete with, by the opcode of its word. -/
def Obligations.OutcomesPerCommand : Prop :=
  ∀ (s t : State) (w : CommandWord), exec (decodeCommand w) s = .next t →
    (w.toNat / 2 ^ 60 = 1 → t.xde.err.bits ∈ [0#3, 1#3, 4#3]) ∧
    (w.toNat / 2 ^ 60 = 2 → t.xde.err.bits ∈ [0#3, 2#3, 4#3, 5#3]) ∧
    (w.toNat / 2 ^ 60 = 3 → t.xde.err.bits ∈ [0#3, 2#3, 3#3, 4#3, 5#3]) ∧
    (w.toNat / 2 ^ 60 = 4 → t.xde.err.bits ∈ [0#3, 4#3, 6#3]) ∧
    (w.toNat / 2 ^ 60 = 5 → t.xde.err.bits ∈ [0#3, 4#3]) ∧
    (w.toNat / 2 ^ 60 = 0 ∨ 6 ≤ w.toNat / 2 ^ 60 → t.xde.err.bits = 4#3)

/-- R86 and R82: how many blocks a completion presents to the AES core, and that every one is enciphered
under the MK the completion leaves. -/
def Obligations.AesInvocationsPerCompletion : Prop :=
  ∀ (s t : State) (w : CommandWord), exec (decodeCommand w) s = .next t →
    ∃ requests : List AesRequest, t.out = .aes requests ∧
      (∀ r ∈ requests, r.key = t.xde.mk) ∧
      requests.length =
        if t.xde.err ≠ .ok then 0
        else if w.toNat / 2 ^ 60 = 1 then 1
        else if w.toNat / 2 ^ 60 = 2 ∨ w.toNat / 2 ^ 60 = 3 then 2
        else 0

/-! ### Registers computed from the state -/

/-- R27's layout with R129's codes: each field of STATUS at its bits, the reserved bits 0; OUT_VALID is
AEAD_VALID; code 7 never appears. -/
def Obligations.StatusFields : Prop :=
  (∀ x : Xde,
    x.status.getLsbD 0 = x.busy ∧ x.status.getLsbD 1 = x.keyed ∧
    x.status.getLsbD 2 = x.aead.valid ∧ x.status.getLsbD 3 = x.resValid ∧
    x.status.extractLsb' 4 3 = x.err.bits ∧ x.status.extractLsb' 7 25 = 0#25 ∧
    x.status.extractLsb' 4 3 ≠ 7#3) ∧
  ErrCode.ok.bits = 0#3 ∧ ErrCode.invalidKey.bits = 1#3 ∧ ErrCode.invalidNonce.bits = 2#3 ∧
  ErrCode.invalidCiphertext.bits = 3#3 ∧ ErrCode.illegalCommand.bits = 4#3 ∧
  ErrCode.notKeyed.bits = 5#3 ∧ ErrCode.invalidBlock.bits = 6#3

/-- R32: PARAM's fields and value; RD PARAM returns that value in every state. -/
def Obligations.ParamFields : Prop :=
  paramReg = 0x01102018#32 ∧ (paramReg.extractLsb' 0 8).toNat = 24 ∧
  (paramReg.extractLsb' 8 8).toNat = 32 ∧ (paramReg.extractLsb' 16 8).toNat = 16 ∧
  (paramReg.extractLsb' 24 8).toNat = 1 ∧
  ∀ s : State, exec .rdParam s = .next { s with out := .rdata (bytes128 0x01102018#128) }

/-- R37: when CMD_READY is 1. -/
def Obligations.CommandReadyFormula : Prop :=
  ∀ (x : Xde) (w : CommandWord),
    x.cmdReady w = true ↔
      x.busy = false ∧ ¬ ((w.toNat / 2 ^ 60 = 2 ∨ w.toNat / 2 ^ 60 = 3) ∧ x.aead.valid = true)

/-! ### The steps of the machine (42_control.md, 70_reset_and_hazards.md) -/

/-- R116, the fetch of XDE: with a command in flight the engine's step is the decoded command's `exec`, at
its scheduled turn or when no turn is scheduled; a host read is the decoded selector's, at the host's scheduled
turn or, with XDE idle, when none is. The program and the schedule, and whose turn it is with none scheduled,
are the model's (log entry 2). -/
def Obligations.StepRunsTheDecodedInstruction : Prop :=
  ∀ (s : State) (rest : List Turn) (more : List HostMove) (rsel : BitVec 2),
    (s.xde.busy = true → s.turns = .engine :: rest →
      step s = exec (decode (.command s.xde.latchW)) { s with turns := rest }) ∧
    (s.xde.busy = true → s.turns = [] → step s = exec (decode (.command s.xde.latchW)) s) ∧
    (s.turns = .host :: rest → s.host = .read rsel :: more →
      step s = exec (decode (.read rsel)) { s with host := more, turns := rest }) ∧
    (s.xde.busy = false → s.turns = [] → s.host = .read rsel :: more →
      step s = exec (decode (.read rsel)) { s with host := more })

/-- R117 and R118: a presented command with its DLEN data bytes is latched whole when CMD_READY is 1, with
ERR cleared and BUSY set and no other register changed; else nothing of it is latched, no register changes and the
host still stands at it. That a turn of a held host is a step, and the host's program and schedule themselves, are
the model's choice (DESIGN CHOICE, log entries 2 and 4). -/
def Obligations.AcceptOrHold : Prop :=
  ∀ (s : State) (w : CommandWord) (d : List Byte) (more : List HostMove) (rest : List Turn),
    s.turns = .host :: rest → s.host = .present w d :: more → d.length = w.toNat / 2 ^ 40 % 2 ^ 8 →
    (s.xde.cmdReady w = true →
      step s = .next
        { xde := { s.xde with latchW := w, latchD := d, err := .ok, busy := true }
          host := more
          turns := rest
          out := .cmdReady true }) ∧
    (s.xde.cmdReady w = false →
      step s = .next { xde := s.xde, host := s.host, turns := rest, out := .cmdReady false })

/-- R121 and R122: an acknowledge zeroes the AEAD registers together where AEAD_VALID is 1 and changes no state
where it is 0; BUSY and every other register keep their values. R122 says that an acknowledge without a hand-off is
no step: that the model answers it with a step that changes nothing is its choice (DESIGN CHOICE, log entry 4). -/
def Obligations.AcknowledgeZeroesTheHandOff : Prop :=
  ∀ (s : State) (rest : List Turn), s.turns = .consumer :: rest →
    (s.xde.aead.valid = true →
      step s = .next
        { xde := { s.xde with
            aead := ⟨false, .sealMode, Vector.replicate 32 0#8, Vector.replicate 12 0#8, 0#40⟩ }
          host := s.host
          turns := rest
          out := .quiet }) ∧
    (s.xde.aead.valid = false →
      step s = .next { xde := s.xde, host := s.host, turns := rest, out := .quiet })

/-- R150: a reset sets every register to its reset value at any step boundary, a command in flight included;
R151: STATUS is then 0 and RESULT zero. -/
def Obligations.ResetSetsEveryRegister : Prop :=
  ∀ (s : State) (rest : List Turn), s.turns = .reset :: rest →
    step s = .next { xde := State.reset.xde, host := s.host, turns := rest, out := .quiet } ∧
    State.reset.xde =
      { mk := Vector.replicate 32 0#8, k1 := Vector.replicate 16 0#8, keyed := false, busy := false,
        err := .ok, resValid := false, result := Vector.replicate 16 0#8,
        aead := ⟨false, .sealMode, Vector.replicate 32 0#8, Vector.replicate 12 0#8, 0#40⟩,
        latchW := 0#64, latchD := [] } ∧
    State.reset.xde.status = 0x00000000#32

/-- No step faults, and the only refusal is of a host that presents a count of data bytes other than DLEN,
which is no move of a host (R160; that it is refused is the model's choice, log entry 6). -/
def Obligations.OnlyAWrongDataCountIsRefused : Prop :=
  ∀ s : State,
    (∀ f : Fault, step s ≠ .fault f) ∧
    (∀ r : Refusal, step s = .refused r ↔
      r = .dataCountMismatch ∧ s.turnNow = .host ∧
        ∃ (w : CommandWord) (d : List Byte) (more : List HostMove),
          s.host = .present w d :: more ∧ d.length ≠ w.toNat / 2 ^ 40 % 2 ^ 8)

/-- R139: an acknowledge and a completion may come in either order; the registers end the same. -/
def Obligations.AcknowledgeCommutesWithCompletion : Prop :=
  ∀ s : State, s.xde.Inv → s.xde.busy = true → s.xde.aead.valid = true →
    ∃ t u : State,
      core.run 2 { s with turns := [.consumer, .engine] } = .next t ∧
      core.run 2 { s with turns := [.engine, .consumer] } = .next u ∧ t.xde = u.xde

/-! ### Runs -/

/-- R44: the invariants hold after reset. Clause (f) is the weaker one of log entry 12. -/
def Obligations.InvariantAtReset : Prop := Xde.Inv State.reset.xde

/-- R44: every step keeps the invariants, from every state that has them. -/
def Obligations.EveryStepKeepsTheInvariant : Prop :=
  ∀ s t : State, s.xde.Inv → step s = .next t → t.xde.Inv

/-- Which steps write which registers, over every turn: the key registers only LDKEY, CLR and reset (R23 to
R25), the AEAD registers only SEALPREP, OPENPREP, CLR, ACK and reset (R33), RESULT only DBL, CLR and reset
(R34). -/
def Obligations.RegistersAreWrittenOnlyBy : Prop :=
  ∀ s t : State, step s = .next t →
    ((t.xde.mk ≠ s.xde.mk ∨ t.xde.k1 ≠ s.xde.k1 ∨ t.xde.keyed ≠ s.xde.keyed) →
      s.turnNow = .reset ∨
      (s.turnNow = .engine ∧ s.xde.busy = true ∧
        (decodeCommand s.xde.latchW = .clr ∨ ∃ n, decodeCommand s.xde.latchW = .ldkey n))) ∧
    (t.xde.aead ≠ s.xde.aead →
      s.turnNow = .reset ∨ s.turnNow = .consumer ∨
      (s.turnNow = .engine ∧ s.xde.busy = true ∧
        (decodeCommand s.xde.latchW = .clr ∨ (∃ n, decodeCommand s.xde.latchW = .sealprep n) ∨
          ∃ n c, decodeCommand s.xde.latchW = .openprep n c))) ∧
    ((t.xde.result ≠ s.xde.result ∨ t.xde.resValid ≠ s.xde.resValid) →
      s.turnNow = .reset ∨
      (s.turnNow = .engine ∧ s.xde.busy = true ∧
        (decodeCommand s.xde.latchW = .clr ∨ ∃ n, decodeCommand s.xde.latchW = .dbl n)))

/-- R142, R120, R127: what the host sees of a run (CMD_READY, every read, every error) does not depend on MK,
K1, AEAD_KEY, AEAD_IV, or on the bytes of a key or a nonce. -/
def Obligations.SecretsNeverReachTheHost : Prop :=
  ∀ (s s' t : State) (k : Nat), SameToHost s s' → core.run k s = .next t →
    ∃ t' : State, core.run k s' = .next t' ∧ SameToHost t t'

/-- R157: a pending hand-off is never overwritten and never dropped on its own, and no SEALPREP or OPENPREP
is accepted, in any run with no acknowledge, no reset and no CLR. -/
def Obligations.HandOffIsHeldUntilReleased : Prop :=
  ∀ (s t : State) (k : Nat),
    s.xde.aead.valid = true →
    (s.xde.busy = true → heldByHandOff s.xde.latchW = false ∧ decodeCommand s.xde.latchW ≠ .clr) →
    (∀ m ∈ s.turns, m ≠ .consumer ∧ m ≠ .reset) →
    (∀ w d, HostMove.present w d ∈ s.host → decodeCommand w ≠ .clr) →
    core.run k s = .next t →
    t.xde.aead = s.xde.aead ∧ (t.xde.busy = true → heldByHandOff t.xde.latchW = false)

/-- R59: XDE is sequentially consistent over commands, under every schedule. The registers at the end of a run
from an idle state are the fold of its events in the order they occurred: each completed command taken as a whole
at its completion, each acknowledge and each reset where it occurred, also while a command was in flight; a command
still in flight has done nothing but occupy the latch. In a run with no reset, commands complete in the order they
were accepted, one in flight at most. -/
def Obligations.RunIsTheFoldOfCompletions : Prop :=
  ∀ (s t : State) (k : Nat), s.xde.busy = false → core.run k s = .next t →
    (t.xde =
      if t.xde.busy then ((s.events k).foldl applyEvent s.xde).accept t.xde.latchW t.xde.latchD
      else (s.events k).foldl applyEvent s.xde) ∧
    (Event.wasReset ∉ s.events k →
      (s.events k).filterMap Event.acceptedCommand =
        (s.events k).filterMap Event.completedCommand ++
          (if t.xde.busy then [(t.xde.latchW, t.xde.latchD)] else []))

/-- R158 and R121: with the engine's turn when none is scheduled (the model's reading of weak fairness, log
entry 2), an accepted command completes at the engine's next turn, whatever turns of the host and the consumer
come before it, and its error, key and result registers are those of completing at once. Where no acknowledge
comes before it, or where it is a SEALPREP or OPENPREP opcode in a state with the invariants, so that no hand-off is
pending, every register of XDE is, the AEAD registers included. -/
def Obligations.AcceptedCommandCompletes : Prop :=
  ∀ (s : State) (pre rest : List Turn), s.xde.busy = true → s.turns = pre ++ rest →
    (∀ m ∈ pre, m ≠ .reset ∧ m ≠ .engine) → HostKeepsCount s.host →
    (rest = [] ∨ rest.head? = some .engine) →
    ∃ t u : State, core.run (pre.length + 1) s = .next t ∧
      exec (decodeCommand s.xde.latchW) s = .next u ∧
      t.xde.busy = false ∧ t.xde.err = u.xde.err ∧ t.xde.mk = u.xde.mk ∧ t.xde.k1 = u.xde.k1 ∧
      t.xde.keyed = u.xde.keyed ∧ t.xde.result = u.xde.result ∧ t.xde.resValid = u.xde.resValid ∧
      (Turn.consumer ∉ pre ∨ (s.xde.Inv ∧ heldByHandOff s.xde.latchW = true) → t.xde = u.xde)

/-- R95: after a successful load with key `key`, MK stays `key` and K1 stays its subkey through every run
with no LDKEY, no CLR and no reset. -/
def Obligations.SubkeyIsFixedForTheKeyInstance : Prop :=
  ∀ (s t : State) (key : Bytes 32) (k : Nat),
    s.xde.mk = key → s.xde.k1 = dbl128 (Config.aes256Enc key (Vector.replicate 16 0#8)) →
    (∀ i, (s.xde.busy = true ∧ i = decodeCommand s.xde.latchW ∨
        ∃ w d, HostMove.present w d ∈ s.host ∧ i = decodeCommand w) →
      i ≠ .clr ∧ ∀ n, i ≠ .ldkey n) →
    Turn.reset ∉ s.turns →
    core.run k s = .next t →
    t.xde.mk = key ∧ t.xde.k1 = dbl128 (Config.aes256Enc key (Vector.replicate 16 0#8)) ∧
    t.xde.keyed = s.xde.keyed

/-- R76: REKEY with a key of 32 bytes, from any idle state, ends with the new key instance, no hand-off and no
result, and the host has nothing left to do. The six turns are the assembler's (log entry 10). -/
def Obligations.RekeyLeavesTheNewKeyOnly : Prop :=
  ∀ (s : State) (key : Bytes 32), s.xde.busy = false →
    assemble (.rekey key.toList) = some ⟨s.host, s.turns⟩ →
    ∃ t : State, core.run 6 s = .next t ∧ t.host = [] ∧
      t.xde = { Xde.reset with
        mk := key, k1 := dbl128 (Config.aes256Enc key (Vector.replicate 16 0#8)), keyed := true }

/-! ### The host: held, released, waiting, done (42_control.md R118, 70_reset_and_hazards.md R157, R164) -/

/-- R157 and R118, the hang: a host that presents a SEALPREP or OPENPREP opcode while a hand-off is pending, in a
run with no acknowledge, no reset and no withdrawal, waits for ever. However many steps are taken the registers
and what the host still has to do stay as they are, and the run has not ended (R164). -/
def Obligations.HeldHostWaitsForEver : Prop :=
  ∀ (s : State) (w : CommandWord) (d : List Byte) (more : List HostMove),
    s.xde.busy = false → s.xde.aead.valid = true → (w.toNat / 2 ^ 60 = 2 ∨ w.toNat / 2 ^ 60 = 3) →
    s.host = .present w d :: more → d.length = w.toNat / 2 ^ 40 % 2 ^ 8 →
    (∀ m ∈ s.turns, m = .host ∨ m = .engine) →
    ∀ k : Nat, ∃ t : State, core.run k s = .next t ∧ t.xde = s.xde ∧ t.host = s.host ∧ t.ended = false

/-- R118 and R157: what lifts the hold of a SEALPREP or OPENPREP opcode behind a hand-off. The host is held at its
first turn; after an acknowledge, after a reset, or after it has withdrawn the command and presented a CLR instead,
which completes, the same presentation is accepted. -/
def Obligations.HeldCommandIsAcceptedOnceReleased : Prop :=
  ∀ (s : State) (w : CommandWord) (d : List Byte) (more : List HostMove),
    s.xde.busy = false → s.xde.aead.valid = true → (w.toNat / 2 ^ 60 = 2 ∨ w.toNat / 2 ^ 60 = 3) →
    d.length = w.toNat / 2 ^ 40 % 2 ^ 8 →
    (s.host = .present w d :: more → s.turns = [.host, .consumer, .host] →
      ∃ t : State, core.run 3 s = .next t ∧ t.host = more ∧
        t.xde = { s.xde with
          aead := ⟨false, .sealMode, Vector.replicate 32 0#8, Vector.replicate 12 0#8, 0#40⟩
          latchW := w, latchD := d, err := .ok, busy := true }) ∧
    (s.host = .present w d :: more → s.turns = [.host, .reset, .host] →
      ∃ t : State, core.run 3 s = .next t ∧ t.host = more ∧
        t.xde = { Xde.reset with latchW := w, latchD := d, busy := true }) ∧
    (s.host = .present w d :: .present 0x5000000000000000#64 [] :: .present w d :: more →
      s.turns = [.host, .withdraw, .host, .engine, .host] →
      ∃ t : State, core.run 5 s = .next t ∧ t.host = more ∧
        t.xde = { Xde.reset with latchW := w, latchD := d, busy := true })

/-- R164, R158 and R157: with no turn scheduled the run of a host program comes to its end, the last command
presented and completed and the last read made, unless the host is then held by a hand-off that nobody acknowledges.
That the engine and the host go on with no turn scheduled is the model's choice (log entry 2). -/
def Obligations.RunEndsUnlessHeld : Prop :=
  ∀ s : State, s.turns = [] → HostKeepsCount s.host →
    ∃ t : State, core.run (2 * s.host.length + 1) s = .next t ∧
      (t.ended = true ∨ t.heldByPending = true)

/-- R76: WAIT is a read of STATUS that the host repeats while it shows BUSY = 1. -/
def Obligations.WaitPollsUntilIdle : Prop :=
  ∀ (s : State) (more : List HostMove), s.turnNow = .host → s.host = .wait :: more →
    (s.xde.busy = true →
      step s = exec .rdStatus { s with turns := s.turns.tail }) ∧
    (s.xde.busy = false →
      step s = exec .rdStatus { s with host := more, turns := s.turns.tail })
end

