-- ==== Sys2Proof/Laws/Bytes.lean ====
section
/-!
SUPPORT. Byte `i` of each byte-sequence operation.
-/

namespace Sys2Proof.Machine

@[simp] theorem getElem_zeroBytes (n i : Nat) (h : i < n) : (zeroBytes n)[i] = 0#8 := by
  simp [zeroBytes]

@[simp] theorem getElem_xorBytes {n : Nat} (a b : Bytes n) (i : Nat) (h : i < n) :
    (xorBytes a b)[i] = a[i] ^^^ b[i] := by
  simp [xorBytes]

@[simp] theorem getElem_bytes128 (v : BitVec 128) (i : Nat) (h : i < 16) :
    (bytes128 v)[i] = v.extractLsb' (8 * (15 - i)) 8 := by
  simp [bytes128]

theorem getElem_concatBytes_left {m n : Nat} (a : Bytes m) (b : Bytes n) (i : Nat) (h : i < m) :
    (concatBytes a b)[i] = a[i] := by
  simp [concatBytes, h]

theorem getElem_concatBytes_right {m n : Nat} (a : Bytes m) (b : Bytes n) (i : Nat) (h : i < n) :
    (concatBytes a b)[m + i] = b[i] := by
  simp [concatBytes]

@[simp] theorem getElem_firstBytes (n : Nat) (data : List Byte) (i : Nat) (h : i < n) :
    (firstBytes n data)[i] = data.getD i 0#8 := by
  simp [firstBytes]

/-- Reading back a latched operand of the right length gives it byte for byte. -/
@[simp] theorem firstBytes_toList {n : Nat} (b : Bytes n) : firstBytes n b.toList = b := by
  ext i h
  simp [firstBytes, List.getD]

@[simp] theorem getElem_noncePrefix (n : Bytes 24) (i : Nat) (h : i < 12) :
    (noncePrefix n)[i] = n[i] := by
  simp [noncePrefix]

@[simp] theorem getElem_nonceSuffix (n : Bytes 24) (i : Nat) (h : i < 12) :
    (nonceSuffix n)[i] = n[12 + i] := by
  simp [nonceSuffix]

/-- Two blocks that agree on the four tag bytes and on the twelve after them are equal. -/
theorem block_ext_tag {a b : Block} (h0 : a[0] = b[0]) (h1 : a[1] = b[1]) (h2 : a[2] = b[2])
    (h3 : a[3] = b[3]) (h4 : ∀ (i : Nat) (h : i < 12), a[4 + i] = b[4 + i]) : a = b := by
  ext1 i hi
  by_cases h : 4 ≤ i
  · obtain ⟨j, rfl⟩ := Nat.exists_eq_add_of_le h
    exact h4 j (by omega)
  · have hi' : i = 0 ∨ i = 1 ∨ i = 2 ∨ i = 3 := by omega
    obtain rfl | rfl | rfl | rfl := hi'
    · exact h0
    · exact h1
    · exact h2
    · exact h3

/-- The tag bytes of M1 (R98). -/
theorem blockM1_tag (n : Bytes 24) :
    (blockM1 n)[0] = 0x00#8 ∧ (blockM1 n)[1] = 0x01#8 ∧ (blockM1 n)[2] = 0x58#8 ∧ (blockM1 n)[3] = 0x00#8 := by
  refine ⟨?_, ?_, ?_, ?_⟩ <;>
    exact (getElem_concatBytes_left (m := 4) (n := 12) _ _ _ (by omega)).trans rfl

/-- The tag bytes of M2 (R99). -/
theorem blockM2_tag (n : Bytes 24) :
    (blockM2 n)[0] = 0x00#8 ∧ (blockM2 n)[1] = 0x02#8 ∧ (blockM2 n)[2] = 0x58#8 ∧ (blockM2 n)[3] = 0x00#8 := by
  refine ⟨?_, ?_, ?_, ?_⟩ <;>
    exact (getElem_concatBytes_left (m := 4) (n := 12) _ _ _ (by omega)).trans rfl

/-- The nonce bytes of M1 (R98). -/
theorem blockM1_nonce (n : Bytes 24) (i : Nat) (h : i < 12) : (blockM1 n)[4 + i] = n[i] :=
  (getElem_concatBytes_right (m := 4) (n := 12) _ _ _ h).trans (getElem_noncePrefix n i h)

/-- The nonce bytes of M2 (R99). -/
theorem blockM2_nonce (n : Bytes 24) (i : Nat) (h : i < 12) : (blockM2 n)[4 + i] = n[i] :=
  (getElem_concatBytes_right (m := 4) (n := 12) _ _ _ h).trans (getElem_noncePrefix n i h)

/-- DK_LO (R101). -/
theorem derivedKey_lo (mk : Bytes 32) (k1 : Block) (n : Bytes 24) (i : Nat) (h : i < 16) :
    (derivedKey mk k1 n)[i] = (Config.aes256Enc mk (xorBytes (blockM1 n) k1))[i] :=
  getElem_concatBytes_left (m := 16) (n := 16) _ _ _ h

/-- DK_HI (R101). -/
theorem derivedKey_hi (mk : Bytes 32) (k1 : Block) (n : Bytes 24) (i : Nat) (h : i < 16) :
    (derivedKey mk k1 n)[16 + i] = (Config.aes256Enc mk (xorBytes (blockM2 n) k1))[i] :=
  getElem_concatBytes_right (m := 16) (n := 16) _ _ _ h

end Sys2Proof.Machine
end

