-- ==== Sys2Proof/Laws/Encoding.lean ====
section
/-!
SUPPORT. The fields of an assembled word, and what each row of spec/30_encoding.md R70 selects, in terms of
the fields. Proofs about decoding cite these and touch no bit.
-/

namespace Sys2Proof

/-! ### Fields of an assembled word -/

@[simp] theorem opcField_assembleWord (o : BitVec 4) (r : BitVec 12) (d : BitVec 8) (n : BitVec 40) :
    opcField (assembleWord o r d n) = o := by
  simp only [opcField, assembleWord]
  ext i hi
  simp
  grind

@[simp] theorem rsvField_assembleWord (o : BitVec 4) (r : BitVec 12) (d : BitVec 8) (n : BitVec 40) :
    rsvField (assembleWord o r d n) = r := by
  simp only [rsvField, assembleWord]
  ext i hi
  simp
  grind

@[simp] theorem dlenField_assembleWord (o : BitVec 4) (r : BitVec 12) (d : BitVec 8) (n : BitVec 40) :
    dlenField (assembleWord o r d n) = d := by
  simp only [dlenField, assembleWord]
  ext i hi
  simp
  grind

@[simp] theorem ctlenField_assembleWord (o : BitVec 4) (r : BitVec 12) (d : BitVec 8) (n : BitVec 40) :
    ctlenField (assembleWord o r d n) = n := by
  simp only [ctlenField, assembleWord]
  ext i hi
  simp
  grind

/-- A word is the assembly of its four fields: no bit is outside them. -/
theorem assembleWord_fields (w : CommandWord) :
    assembleWord (opcField w) (rsvField w) (dlenField w) (ctlenField w) = w := by
  simp only [opcField, rsvField, dlenField, ctlenField, assembleWord]
  ext i hi
  simp
  grind

theorem commandWord_ext {w w' : CommandWord} (ho : opcField w = opcField w') (hr : rsvField w = rsvField w')
    (hd : dlenField w = dlenField w') (hc : ctlenField w = ctlenField w') : w = w' := by
  rw [← assembleWord_fields w, ho, hr, hd, hc, assembleWord_fields]

theorem assembleWord_inj {o o' : BitVec 4} {r r' : BitVec 12} {d d' : BitVec 8} {n n' : BitVec 40} :
    assembleWord o r d n = assembleWord o' r' d' n' ↔ o = o' ∧ r = r' ∧ d = d' ∧ n = n' := by
  refine ⟨fun h => ⟨?_, ?_, ?_, ?_⟩, ?_⟩
  · simpa only [opcField_assembleWord] using congrArg opcField h
  · simpa only [rsvField_assembleWord] using congrArg rsvField h
  · simpa only [dlenField_assembleWord] using congrArg dlenField h
  · simpa only [ctlenField_assembleWord] using congrArg ctlenField h
  · rintro ⟨rfl, rfl, rfl, rfl⟩
    rfl

/-! ### Fields as division -/

theorem opcField_toNat (w : CommandWord) : (opcField w).toNat = w.toNat / 2 ^ 60 := by
  have := w.isLt
  simp only [opcField, BitVec.extractLsb'_toNat, Nat.shiftRight_eq_div_pow]
  omega

theorem rsvField_toNat (w : CommandWord) : (rsvField w).toNat = w.toNat / 2 ^ 48 % 2 ^ 12 := by
  simp only [rsvField, BitVec.extractLsb'_toNat, Nat.shiftRight_eq_div_pow]

theorem dlenField_toNat (w : CommandWord) : (dlenField w).toNat = w.toNat / 2 ^ 40 % 2 ^ 8 := by
  simp only [dlenField, BitVec.extractLsb'_toNat, Nat.shiftRight_eq_div_pow]

theorem ctlenField_toNat (w : CommandWord) : (ctlenField w).toNat = w.toNat % 2 ^ 40 := by
  simp only [ctlenField, BitVec.extractLsb'_toNat, Nat.shiftRight_eq_div_pow, Nat.pow_zero, Nat.div_one]

theorem opcField_eq_iff (w : CommandWord) (o : BitVec 4) :
    opcField w = o ↔ w.toNat / 2 ^ 60 = o.toNat := by
  rw [← opcField_toNat]
  exact BitVec.toNat_inj.symm

/-! ### Masks -/

/-- Masking works field by field. -/
theorem assembleWord_and (o o' : BitVec 4) (r r' : BitVec 12) (d d' : BitVec 8) (n n' : BitVec 40) :
    assembleWord o r d n &&& assembleWord o' r' d' n' =
      assembleWord (o &&& o') (r &&& r') (d &&& d') (n &&& n') := by
  apply commandWord_ext
  · rw [opcField_assembleWord, opcField, BitVec.extractLsb'_and]
    exact congrArg₂ (· &&& ·) (opcField_assembleWord ..) (opcField_assembleWord ..)
  · rw [rsvField_assembleWord, rsvField, BitVec.extractLsb'_and]
    exact congrArg₂ (· &&& ·) (rsvField_assembleWord ..) (rsvField_assembleWord ..)
  · rw [dlenField_assembleWord, dlenField, BitVec.extractLsb'_and]
    exact congrArg₂ (· &&& ·) (dlenField_assembleWord ..) (dlenField_assembleWord ..)
  · rw [ctlenField_assembleWord, ctlenField, BitVec.extractLsb'_and]
    exact congrArg₂ (· &&& ·) (ctlenField_assembleWord ..) (ctlenField_assembleWord ..)

theorem and_assembleWord_eq_iff (w : CommandWord) (o o' : BitVec 4) (r r' : BitVec 12) (d d' : BitVec 8)
    (n n' : BitVec 40) :
    w &&& assembleWord o r d n = assembleWord o' r' d' n' ↔
      opcField w &&& o = o' ∧ rsvField w &&& r = r' ∧ dlenField w &&& d = d' ∧ ctlenField w &&& n = n' := by
  rw [← assembleWord_fields w, assembleWord_and, assembleWord_inj, assembleWord_fields]

/-! ### What the rows of R70 select -/

/-- The rows with DLEN free: LDKEY, SEALPREP and DBL. -/
theorem selects_dlenRow (name : String) (o : BitVec 4) (m w : CommandWord)
    (hm : m = assembleWord o 0#12 0#8 0#40) :
    (Row.selects ⟨name, m, 0xFFFF00FFFFFFFFFF#64⟩ w = true) ↔
      opcField w = o ∧ rsvField w = 0#12 ∧ ctlenField w = 0#40 := by
  have hk : 0xFFFF00FFFFFFFFFF#64
      = assembleWord (BitVec.allOnes 4) (BitVec.allOnes 12) 0#8 (BitVec.allOnes 40) := by decide
  simp only [Row.selects, hm, hk, beq_iff_eq, and_assembleWord_eq_iff, BitVec.and_allOnes]
  simp

/-- The row with DLEN and CTLEN free: OPENPREP. -/
theorem selects_openprepRow (name : String) (o : BitVec 4) (m w : CommandWord)
    (hm : m = assembleWord o 0#12 0#8 0#40) :
    (Row.selects ⟨name, m, 0xFFFF000000000000#64⟩ w = true) ↔ opcField w = o ∧ rsvField w = 0#12 := by
  have hk : 0xFFFF000000000000#64
      = assembleWord (BitVec.allOnes 4) (BitVec.allOnes 12) 0#8 0#40 := by decide
  simp only [Row.selects, hm, hk, beq_iff_eq, and_assembleWord_eq_iff, BitVec.and_allOnes]
  simp

/-- The row with no free field: CLR. -/
theorem selects_clrRow (name : String) (o : BitVec 4) (m w : CommandWord)
    (hm : m = assembleWord o 0#12 0#8 0#40) :
    (Row.selects ⟨name, m, 0xFFFFFFFFFFFFFFFF#64⟩ w = true) ↔
      opcField w = o ∧ rsvField w = 0#12 ∧ dlenField w = 0#8 ∧ ctlenField w = 0#40 := by
  have hk : 0xFFFFFFFFFFFFFFFF#64
      = assembleWord (BitVec.allOnes 4) (BitVec.allOnes 12) (BitVec.allOnes 8) (BitVec.allOnes 40) := by decide
  simp only [Row.selects, hm, hk, beq_iff_eq, and_assembleWord_eq_iff, BitVec.and_allOnes]

/-- Which words R70 gives a command, in terms of their fields. -/
theorem legalWord_iff (w : CommandWord) :
    legalWord w = true ↔ rsvField w = 0#12 ∧
      (((opcField w = 1#4 ∨ opcField w = 2#4 ∨ opcField w = 4#4) ∧ ctlenField w = 0#40)
        ∨ opcField w = 3#4 ∨ (opcField w = 5#4 ∧ dlenField w = 0#8 ∧ ctlenField w = 0#40)) := by
  have h1 := selects_dlenRow "LDKEY" 1#4 0x1000000000000000#64 w (by decide)
  have h2 := selects_dlenRow "SEALPREP" 2#4 0x2000000000000000#64 w (by decide)
  have h3 := selects_openprepRow "OPENPREP" 3#4 0x3000000000000000#64 w (by decide)
  have h4 := selects_dlenRow "DBL" 4#4 0x4000000000000000#64 w (by decide)
  have h5 := selects_clrRow "CLR" 5#4 0x5000000000000000#64 w (by decide)
  simp only [legalWord, commandRows, List.any_cons, List.any_nil, Bool.or_false, Bool.or_eq_true, h1, h2,
    h3, h4, h5]
  constructor
  · rintro (⟨h, r, n⟩ | ⟨h, r, n⟩ | ⟨h, r⟩ | ⟨h, r, n⟩ | ⟨h, r, n⟩)
    · exact ⟨r, .inl ⟨.inl h, n⟩⟩
    · exact ⟨r, .inl ⟨.inr (.inl h), n⟩⟩
    · exact ⟨r, .inr (.inl h)⟩
    · exact ⟨r, .inl ⟨.inr (.inr h), n⟩⟩
    · exact ⟨r, .inr (.inr ⟨h, n⟩)⟩
  · rintro ⟨r, ⟨h | h | h, n⟩ | h | ⟨h, n⟩⟩
    · exact .inl ⟨h, r, n⟩
    · exact .inr (.inl ⟨h, r, n⟩)
    · exact .inr (.inr (.inr (.inl ⟨h, r, n⟩)))
    · exact .inr (.inr (.inl ⟨h, r⟩))
    · exact .inr (.inr (.inr (.inr ⟨h, r, n⟩)))

end Sys2Proof
end

