-- ==== Sys2Proof/Laws/State.lean ====
section
/-!
SUPPORT. One lemma per field per write of XDE's registers, so that no proof unfolds a record update.
-/

namespace Sys2Proof.Machine

variable (x : Xde)

/-! ### `Xde.setErr` -/

@[simp] theorem Xde.setErr_mk (c : ErrCode) : (x.setErr c).mk = x.mk := rfl
@[simp] theorem Xde.setErr_k1 (c : ErrCode) : (x.setErr c).k1 = x.k1 := rfl
@[simp] theorem Xde.setErr_keyed (c : ErrCode) : (x.setErr c).keyed = x.keyed := rfl
@[simp] theorem Xde.setErr_busy (c : ErrCode) : (x.setErr c).busy = x.busy := rfl
@[simp] theorem Xde.setErr_err (c : ErrCode) : (x.setErr c).err = c := rfl
@[simp] theorem Xde.setErr_resValid (c : ErrCode) : (x.setErr c).resValid = x.resValid := rfl
@[simp] theorem Xde.setErr_result (c : ErrCode) : (x.setErr c).result = x.result := rfl
@[simp] theorem Xde.setErr_aead (c : ErrCode) : (x.setErr c).aead = x.aead := rfl
@[simp] theorem Xde.setErr_latchW (c : ErrCode) : (x.setErr c).latchW = x.latchW := rfl
@[simp] theorem Xde.setErr_latchD (c : ErrCode) : (x.setErr c).latchD = x.latchD := rfl

/-! ### `Xde.loadKey` -/

@[simp] theorem Xde.loadKey_mk (k : Bytes 32) (k1 : Block) : (x.loadKey k k1).mk = k := rfl
@[simp] theorem Xde.loadKey_k1 (k : Bytes 32) (k1 : Block) : (x.loadKey k k1).k1 = k1 := rfl
@[simp] theorem Xde.loadKey_keyed (k : Bytes 32) (k1 : Block) : (x.loadKey k k1).keyed = true := rfl
@[simp] theorem Xde.loadKey_busy (k : Bytes 32) (k1 : Block) : (x.loadKey k k1).busy = x.busy := rfl
@[simp] theorem Xde.loadKey_err (k : Bytes 32) (k1 : Block) : (x.loadKey k k1).err = x.err := rfl
@[simp] theorem Xde.loadKey_resValid (k : Bytes 32) (k1 : Block) : (x.loadKey k k1).resValid = x.resValid := rfl
@[simp] theorem Xde.loadKey_result (k : Bytes 32) (k1 : Block) : (x.loadKey k k1).result = x.result := rfl
@[simp] theorem Xde.loadKey_aead (k : Bytes 32) (k1 : Block) : (x.loadKey k k1).aead = x.aead := rfl
@[simp] theorem Xde.loadKey_latchW (k : Bytes 32) (k1 : Block) : (x.loadKey k k1).latchW = x.latchW := rfl
@[simp] theorem Xde.loadKey_latchD (k : Bytes 32) (k1 : Block) : (x.loadKey k k1).latchD = x.latchD := rfl

/-! ### `Xde.dropKey` -/

@[simp] theorem Xde.dropKey_mk : (x.dropKey).mk = zeroBytes 32 := rfl
@[simp] theorem Xde.dropKey_k1 : (x.dropKey).k1 = zeroBytes 16 := rfl
@[simp] theorem Xde.dropKey_keyed : (x.dropKey).keyed = false := rfl
@[simp] theorem Xde.dropKey_busy : (x.dropKey).busy = x.busy := rfl
@[simp] theorem Xde.dropKey_err : (x.dropKey).err = x.err := rfl
@[simp] theorem Xde.dropKey_resValid : (x.dropKey).resValid = x.resValid := rfl
@[simp] theorem Xde.dropKey_result : (x.dropKey).result = x.result := rfl
@[simp] theorem Xde.dropKey_aead : (x.dropKey).aead = x.aead := rfl
@[simp] theorem Xde.dropKey_latchW : (x.dropKey).latchW = x.latchW := rfl
@[simp] theorem Xde.dropKey_latchD : (x.dropKey).latchD = x.latchD := rfl

/-! ### `Xde.setResult` -/

@[simp] theorem Xde.setResult_mk (v : Block) : (x.setResult v).mk = x.mk := rfl
@[simp] theorem Xde.setResult_k1 (v : Block) : (x.setResult v).k1 = x.k1 := rfl
@[simp] theorem Xde.setResult_keyed (v : Block) : (x.setResult v).keyed = x.keyed := rfl
@[simp] theorem Xde.setResult_busy (v : Block) : (x.setResult v).busy = x.busy := rfl
@[simp] theorem Xde.setResult_err (v : Block) : (x.setResult v).err = x.err := rfl
@[simp] theorem Xde.setResult_resValid (v : Block) : (x.setResult v).resValid = true := rfl
@[simp] theorem Xde.setResult_result (v : Block) : (x.setResult v).result = v := rfl
@[simp] theorem Xde.setResult_aead (v : Block) : (x.setResult v).aead = x.aead := rfl
@[simp] theorem Xde.setResult_latchW (v : Block) : (x.setResult v).latchW = x.latchW := rfl
@[simp] theorem Xde.setResult_latchD (v : Block) : (x.setResult v).latchD = x.latchD := rfl

/-! ### `Xde.dropResult` -/

@[simp] theorem Xde.dropResult_mk : (x.dropResult).mk = x.mk := rfl
@[simp] theorem Xde.dropResult_k1 : (x.dropResult).k1 = x.k1 := rfl
@[simp] theorem Xde.dropResult_keyed : (x.dropResult).keyed = x.keyed := rfl
@[simp] theorem Xde.dropResult_busy : (x.dropResult).busy = x.busy := rfl
@[simp] theorem Xde.dropResult_err : (x.dropResult).err = x.err := rfl
@[simp] theorem Xde.dropResult_resValid : (x.dropResult).resValid = false := rfl
@[simp] theorem Xde.dropResult_result : (x.dropResult).result = zeroBytes 16 := rfl
@[simp] theorem Xde.dropResult_aead : (x.dropResult).aead = x.aead := rfl
@[simp] theorem Xde.dropResult_latchW : (x.dropResult).latchW = x.latchW := rfl
@[simp] theorem Xde.dropResult_latchD : (x.dropResult).latchD = x.latchD := rfl

/-! ### `Xde.emitAead` -/

@[simp] theorem Xde.emitAead_mk (m : Mode) (k : Bytes 32) (iv : Bytes 12) (n : BitVec 40) : (x.emitAead m k iv n).mk = x.mk := rfl
@[simp] theorem Xde.emitAead_k1 (m : Mode) (k : Bytes 32) (iv : Bytes 12) (n : BitVec 40) : (x.emitAead m k iv n).k1 = x.k1 := rfl
@[simp] theorem Xde.emitAead_keyed (m : Mode) (k : Bytes 32) (iv : Bytes 12) (n : BitVec 40) : (x.emitAead m k iv n).keyed = x.keyed := rfl
@[simp] theorem Xde.emitAead_busy (m : Mode) (k : Bytes 32) (iv : Bytes 12) (n : BitVec 40) : (x.emitAead m k iv n).busy = x.busy := rfl
@[simp] theorem Xde.emitAead_err (m : Mode) (k : Bytes 32) (iv : Bytes 12) (n : BitVec 40) : (x.emitAead m k iv n).err = x.err := rfl
@[simp] theorem Xde.emitAead_resValid (m : Mode) (k : Bytes 32) (iv : Bytes 12) (n : BitVec 40) : (x.emitAead m k iv n).resValid = x.resValid := rfl
@[simp] theorem Xde.emitAead_result (m : Mode) (k : Bytes 32) (iv : Bytes 12) (n : BitVec 40) : (x.emitAead m k iv n).result = x.result := rfl
@[simp] theorem Xde.emitAead_aead (m : Mode) (k : Bytes 32) (iv : Bytes 12) (n : BitVec 40) : (x.emitAead m k iv n).aead = ⟨true, m, k, iv, n⟩ := rfl
@[simp] theorem Xde.emitAead_latchW (m : Mode) (k : Bytes 32) (iv : Bytes 12) (n : BitVec 40) : (x.emitAead m k iv n).latchW = x.latchW := rfl
@[simp] theorem Xde.emitAead_latchD (m : Mode) (k : Bytes 32) (iv : Bytes 12) (n : BitVec 40) : (x.emitAead m k iv n).latchD = x.latchD := rfl

/-! ### `Xde.dropAead` -/

@[simp] theorem Xde.dropAead_mk : (x.dropAead).mk = x.mk := rfl
@[simp] theorem Xde.dropAead_k1 : (x.dropAead).k1 = x.k1 := rfl
@[simp] theorem Xde.dropAead_keyed : (x.dropAead).keyed = x.keyed := rfl
@[simp] theorem Xde.dropAead_busy : (x.dropAead).busy = x.busy := rfl
@[simp] theorem Xde.dropAead_err : (x.dropAead).err = x.err := rfl
@[simp] theorem Xde.dropAead_resValid : (x.dropAead).resValid = x.resValid := rfl
@[simp] theorem Xde.dropAead_result : (x.dropAead).result = x.result := rfl
@[simp] theorem Xde.dropAead_aead : (x.dropAead).aead = Aead.zero := rfl
@[simp] theorem Xde.dropAead_latchW : (x.dropAead).latchW = x.latchW := rfl
@[simp] theorem Xde.dropAead_latchD : (x.dropAead).latchD = x.latchD := rfl

/-! ### `Xde.accept` -/

@[simp] theorem Xde.accept_mk (w : CommandWord) (d : List Byte) : (x.accept w d).mk = x.mk := rfl
@[simp] theorem Xde.accept_k1 (w : CommandWord) (d : List Byte) : (x.accept w d).k1 = x.k1 := rfl
@[simp] theorem Xde.accept_keyed (w : CommandWord) (d : List Byte) : (x.accept w d).keyed = x.keyed := rfl
@[simp] theorem Xde.accept_busy (w : CommandWord) (d : List Byte) : (x.accept w d).busy = true := rfl
@[simp] theorem Xde.accept_err (w : CommandWord) (d : List Byte) : (x.accept w d).err = .ok := rfl
@[simp] theorem Xde.accept_resValid (w : CommandWord) (d : List Byte) : (x.accept w d).resValid = x.resValid := rfl
@[simp] theorem Xde.accept_result (w : CommandWord) (d : List Byte) : (x.accept w d).result = x.result := rfl
@[simp] theorem Xde.accept_aead (w : CommandWord) (d : List Byte) : (x.accept w d).aead = x.aead := rfl
@[simp] theorem Xde.accept_latchW (w : CommandWord) (d : List Byte) : (x.accept w d).latchW = w := rfl
@[simp] theorem Xde.accept_latchD (w : CommandWord) (d : List Byte) : (x.accept w d).latchD = d := rfl

/-! ### `Xde.finish` -/

@[simp] theorem Xde.finish_mk : (x.finish).mk = x.mk := rfl
@[simp] theorem Xde.finish_k1 : (x.finish).k1 = x.k1 := rfl
@[simp] theorem Xde.finish_keyed : (x.finish).keyed = x.keyed := rfl
@[simp] theorem Xde.finish_busy : (x.finish).busy = false := rfl
@[simp] theorem Xde.finish_err : (x.finish).err = x.err := rfl
@[simp] theorem Xde.finish_resValid : (x.finish).resValid = x.resValid := rfl
@[simp] theorem Xde.finish_result : (x.finish).result = x.result := rfl
@[simp] theorem Xde.finish_aead : (x.finish).aead = x.aead := rfl
@[simp] theorem Xde.finish_latchW : (x.finish).latchW = 0#64 := rfl
@[simp] theorem Xde.finish_latchD : (x.finish).latchD = [] := rfl

/-! ### `Aead.zero` and `Xde.reset` -/

@[simp] theorem Aead.zero_valid : Aead.zero.valid = false := rfl
@[simp] theorem Aead.zero_mode : Aead.zero.mode = .sealMode := rfl
@[simp] theorem Aead.zero_key : Aead.zero.key = zeroBytes 32 := rfl
@[simp] theorem Aead.zero_iv : Aead.zero.iv = zeroBytes 12 := rfl
@[simp] theorem Aead.zero_bodylen : Aead.zero.bodylen = 0#40 := rfl

@[simp] theorem Xde.reset_mk : Xde.reset.mk = zeroBytes 32 := rfl
@[simp] theorem Xde.reset_k1 : Xde.reset.k1 = zeroBytes 16 := rfl
@[simp] theorem Xde.reset_keyed : Xde.reset.keyed = false := rfl
@[simp] theorem Xde.reset_busy : Xde.reset.busy = false := rfl
@[simp] theorem Xde.reset_err : Xde.reset.err = .ok := rfl
@[simp] theorem Xde.reset_resValid : Xde.reset.resValid = false := rfl
@[simp] theorem Xde.reset_result : Xde.reset.result = zeroBytes 16 := rfl
@[simp] theorem Xde.reset_aead : Xde.reset.aead = Aead.zero := rfl
@[simp] theorem Xde.reset_latchW : Xde.reset.latchW = 0#64 := rfl
@[simp] theorem Xde.reset_latchD : Xde.reset.latchD = [] := rfl

end Sys2Proof.Machine
end

