-- ==== Sys2Proof/Laws/Ops.lean ====
section
/-!
SUPPORT. One lemma per shared operation that says everything it can do. Callers cite these and unfold none.
-/

namespace Sys2Proof.Machine

/-! ### Bodies -/

@[simp] theorem raise_xde (e : ErrCode) (x : Xde) : (raise e x).xde = x.setErr e := rfl
@[simp] theorem raise_aes (e : ErrCode) (x : Xde) : (raise e x).aes = [] := rfl
@[simp] theorem succeed_xde (x : Xde) (q : List AesRequest) : (succeed x q).xde = x.setErr .ok := rfl
@[simp] theorem succeed_aes (x : Xde) (q : List AesRequest) : (succeed x q).aes = q := rfl

@[simp] theorem handOff_xde (m : Mode) (n : BitVec 40) (x : Xde) :
    (handOff m n x).xde =
      (x.emitAead m (derivedKey x.mk x.k1 x.nonceOperand) (nonceSuffix x.nonceOperand) n).setErr .ok := rfl

@[simp] theorem handOff_aes (m : Mode) (n : BitVec 40) (x : Xde) :
    (handOff m n x).aes = deriveRequests x.mk x.k1 x.nonceOperand := rfl

/-! ### Steps -/

/-- A completion always answers a next state: the body's writes, the latch cleared, BUSY 0. -/
theorem complete_next_iff (body : Xde → Body) (s t : State) :
    complete body s = .next t ↔
      t = { s with xde := (body s.xde).xde.finish, out := .aes (body s.xde).aes } := by
  simp [complete, eq_comm]

/-- A read answers a next state that differs in the port's output only. -/
theorem respond_next_iff (v : Block) (s t : State) :
    respond v s = .next t ↔ t = { s with out := .rdata v } := by
  simp [respond, eq_comm]

/-- A presentation that is no refusal kept the data count, and was accepted or held in its place. -/
theorem presentStep_next_iff (w : CommandWord) (d : List Byte) (rest : List HostMove) (s t : State) :
    presentStep w d rest s = .next t ↔ dataCountOk w d = true ∧
      ((s.xde.cmdReady w = true ∧
          t = { s with xde := s.xde.accept w d, host := rest, out := .cmdReady true }) ∨
        (s.xde.cmdReady w = false ∧ t = { s with out := .cmdReady false })) := by
  unfold presentStep
  cases dataCountOk w d <;> cases s.xde.cmdReady w <;> simp [eq_comm]

/-- A withdrawal drops a presentation at the head of the host's program, and nothing else. -/
theorem withdrawStep_next_iff (s t : State) :
    withdrawStep s = .next t ↔
      (∃ w d rest, s.host = .present w d :: rest ∧ t = { s with host := rest, out := .quiet }) ∨
        ((∀ w d rest, s.host ≠ .present w d :: rest) ∧ t = { s with out := .quiet }) := by
  obtain ⟨x, h, ms, o⟩ := s
  unfold withdrawStep
  rcases h with _ | ⟨_ | _ | _, h⟩ <;> simp [eq_comm (b := t)]

theorem ackStep_next_iff (s t : State) :
    ackStep s = .next t ↔
      (s.xde.aead.valid = true ∧ t = { s with xde := s.xde.dropAead, out := .quiet }) ∨
        (s.xde.aead.valid = false ∧ t = { s with out := .quiet }) := by
  unfold ackStep
  cases s.xde.aead.valid <;> simp [eq_comm]

theorem resetStep_next_iff (s t : State) :
    resetStep s = .next t ↔ t = { s with xde := Xde.reset, out := .quiet } := by
  simp [resetStep, eq_comm]

theorem idleStep_next_iff (s t : State) :
    idleStep s = .next t ↔ t = { s with out := .quiet } := by
  simp [idleStep, eq_comm]

theorem cmdReady_iff (x : Xde) (w : CommandWord) :
    x.cmdReady w = true ↔ x.busy = false ∧ ¬ (heldByHandOff w = true ∧ x.aead.valid = true) := by
  unfold Xde.cmdReady
  cases x.busy <;> cases heldByHandOff w <;> cases x.aead.valid <;> simp

theorem heldByHandOff_iff (w : CommandWord) :
    heldByHandOff w = true ↔ opcField w = 2#4 ∨ opcField w = 3#4 := by
  simp [heldByHandOff]

theorem dataCountOk_iff (w : CommandWord) (d : List Byte) :
    dataCountOk w d = true ↔ d.length = (dlenField w).toNat := by
  simp [dataCountOk]

end Sys2Proof.Machine
end

