-- ==== Sys2Proof/Laws/Exec.lean ====
section
/-!
SUPPORT. Every command is the completion of one body, every read one response: the case split on the
instruction is made here once.
-/

namespace Sys2Proof.Machine

/-- The body of a command; a read has none and leaves XDE alone. -/
def bodyOf : Instr → Xde → Body
  | .ldkey dlen => ldkeyBody dlen
  | .sealprep dlen => sealprepBody dlen
  | .openprep dlen ctlen => openprepBody dlen ctlen
  | .dbl dlen => dblBody dlen
  | .clr => clrBody
  | .illegal _ => illegalBody
  | .rdStatus => fun x => ⟨x, []⟩
  | .rdParam => fun x => ⟨x, []⟩
  | .rdResult => fun x => ⟨x, []⟩
  | .rdReserved => fun x => ⟨x, []⟩

/-- RDATA for a selector. -/
def readValue (rsel : BitVec 2) (x : Xde) : Block :=
  if rsel = 0b00#2 then zext128 x.status
  else if rsel = 0b01#2 then zext128 paramReg
  else if rsel = 0b10#2 then x.result
  else zeroBytes 16

/-- The engine's completion of a word is the completion of its command's body (R116). -/
theorem exec_command (w : CommandWord) (s : State) :
    exec (decode (.command w)) s = complete (bodyOf (decodeCommand w)) s := by
  show exec (decodeCommand w) s = _
  unfold decodeCommand
  split_ifs <;> rfl

/-- A read is a response and nothing else (R119). -/
theorem exec_read (rsel : BitVec 2) (s : State) :
    exec (decode (.read rsel)) s = respond (readValue rsel s.xde) s := by
  show exec (decodeRead rsel) s = _
  unfold decodeRead readValue
  split_ifs <;> rfl

/-- No instruction touches the host's program or the schedule. -/
theorem exec_next_schedule {i : Instr} {s t : State} (h : exec i s = .next t) :
    t.host = s.host ∧ t.turns = s.turns := by
  cases i <;> cases h <;> exact ⟨rfl, rfl⟩

end Sys2Proof.Machine
end

