-- ==== Sys2Proof/Laws/PerInstr.lean ====
section
/-!
SUPPORT. Family `EncodesInRow`: the encoding of a well-formed instruction is selected by its own row of
spec/30_encoding.md R70 and by no other; a read has a selector and no row; an illegal word has no row.
-/

namespace Sys2Proof.Laws

/-- The row of R70 an instruction's words belong to. -/
def rowName : Instr → Option String
  | .ldkey _ => some "LDKEY"
  | .sealprep _ => some "SEALPREP"
  | .openprep _ _ => some "OPENPREP"
  | .dbl _ => some "DBL"
  | .clr => some "CLR"
  | .rdStatus => none
  | .rdParam => none
  | .rdResult => none
  | .rdReserved => none
  | .illegal _ => none

/-- The names of the rows of R70 that select a word. -/
def rowsOf (w : CommandWord) : List String := (commandRows.filter (·.selects w)).map Row.mnemonic

def EncodesInRow.Statement (i : Instr) : Prop :=
  i.wf = true → ∀ w, encode i = .command w → rowsOf w = (rowName i).toList

/-- Which rows select a word, from its fields: the five conditions are exclusive by the opcode. -/
theorem rowsOf_eq (w : CommandWord) :
    rowsOf w =
      (if opcField w = 1#4 ∧ rsvField w = 0#12 ∧ ctlenField w = 0#40 then ["LDKEY"] else []) ++
      (if opcField w = 2#4 ∧ rsvField w = 0#12 ∧ ctlenField w = 0#40 then ["SEALPREP"] else []) ++
      (if opcField w = 3#4 ∧ rsvField w = 0#12 then ["OPENPREP"] else []) ++
      (if opcField w = 4#4 ∧ rsvField w = 0#12 ∧ ctlenField w = 0#40 then ["DBL"] else []) ++
      (if opcField w = 5#4 ∧ rsvField w = 0#12 ∧ dlenField w = 0#8 ∧ ctlenField w = 0#40 then ["CLR"]
        else []) := by
  have h1 := selects_dlenRow "LDKEY" 1#4 0x1000000000000000#64 w (by decide)
  have h2 := selects_dlenRow "SEALPREP" 2#4 0x2000000000000000#64 w (by decide)
  have h3 := selects_openprepRow "OPENPREP" 3#4 0x3000000000000000#64 w (by decide)
  have h4 := selects_dlenRow "DBL" 4#4 0x4000000000000000#64 w (by decide)
  have h5 := selects_clrRow "CLR" 5#4 0x5000000000000000#64 w (by decide)
  simp only [rowsOf, commandRows, List.filter_cons, h1, h2, h3, h4, h5, List.filter_nil]
  split_ifs <;> rfl

theorem EncodesInRow.ldkey (dlen : BitVec 8) : EncodesInRow.Statement (.ldkey dlen) := by
  rintro - w h
  obtain rfl := Encoding.command.inj h
  simp [rowsOf_eq, rowName]

theorem EncodesInRow.sealprep (dlen : BitVec 8) : EncodesInRow.Statement (.sealprep dlen) := by
  rintro - w h
  obtain rfl := Encoding.command.inj h
  simp [rowsOf_eq, rowName]

theorem EncodesInRow.openprep (dlen : BitVec 8) (ctlen : BitVec 40) :
    EncodesInRow.Statement (.openprep dlen ctlen) := by
  rintro - w h
  obtain rfl := Encoding.command.inj h
  simp [rowsOf_eq, rowName]

theorem EncodesInRow.dbl (dlen : BitVec 8) : EncodesInRow.Statement (.dbl dlen) := by
  rintro - w h
  obtain rfl := Encoding.command.inj h
  simp [rowsOf_eq, rowName]

theorem EncodesInRow.clr : EncodesInRow.Statement .clr := by
  rintro - w h
  obtain rfl := Encoding.command.inj h
  simp [rowsOf_eq, rowName]

theorem EncodesInRow.rdStatus : EncodesInRow.Statement .rdStatus := by
  rintro - w h
  cases h

theorem EncodesInRow.rdParam : EncodesInRow.Statement .rdParam := by
  rintro - w h
  cases h

theorem EncodesInRow.rdResult : EncodesInRow.Statement .rdResult := by
  rintro - w h
  cases h

theorem EncodesInRow.rdReserved : EncodesInRow.Statement .rdReserved := by
  rintro - w h
  cases h

theorem EncodesInRow.illegal (word : CommandWord) : EncodesInRow.Statement (.illegal word) := by
  rintro hwf w h
  obtain rfl := Encoding.command.inj h
  have hn : commandRows.any (·.selects word) = false := by simpa [Instr.wf, legalWord] using hwf
  have hnone : commandRows.filter (·.selects word) = [] :=
    List.filter_eq_nil_iff.2 (by simpa using hn)
  rw [rowsOf, hnone]
  rfl

end Sys2Proof.Laws
end

