-- ==== Sys2Proof/Laws/Step.lean ====
section
/-!
SUPPORT. What one step can do, said once: every invariant is a case split on `step_next_xde`.
-/

namespace Sys2Proof.Machine

/-- The engine's turn is a completion with BUSY 1 and nothing with BUSY 0. -/
theorem engineTurn_next_iff (s t : State) :
    engineTurn s = .next t ↔
      (s.xde.busy = true ∧
        t = { s with
          xde := (bodyOf (decodeCommand s.xde.latchW) s.xde).xde.finish
          out := .aes (bodyOf (decodeCommand s.xde.latchW) s.xde).aes }) ∨
        (s.xde.busy = false ∧ t = { s with out := .quiet }) := by
  unfold engineTurn
  cases hb : s.xde.busy
  · simp [idleStep_next_iff]
  · simp [exec_command, complete_next_iff]

/-- The host's turn: nothing left to do; a presentation accepted or held; a read; a WAIT that goes on or
stays. -/
theorem hostTurn_next_iff (s t : State) :
    hostTurn s = .next t ↔
      (s.host = [] ∧ t = { s with out := .quiet }) ∨
      (∃ w d rest, s.host = .present w d :: rest ∧ dataCountOk w d = true ∧
        ((s.xde.cmdReady w = true ∧
            t = { s with xde := s.xde.accept w d, host := rest, out := .cmdReady true }) ∨
          (s.xde.cmdReady w = false ∧ t = { s with out := .cmdReady false }))) ∨
      (∃ rsel rest, s.host = .read rsel :: rest ∧
        t = { s with host := rest, out := .rdata (readValue rsel s.xde) }) ∨
      (∃ rest, s.host = .wait :: rest ∧
        t = { s with
          host := if s.xde.busy then .wait :: rest else rest
          out := .rdata (readValue 0b00#2 s.xde) }) := by
  obtain ⟨x, h, ms, o⟩ := s
  unfold hostTurn
  rcases h with _ | ⟨_ | _ | _, h⟩ <;>
    simp [idleStep_next_iff, presentStep_next_iff, exec_read, respond_next_iff]

/-- Every way a step can answer a next state, by whose turn it is. -/
theorem step_next_cases {s t : State} (h : step s = .next t) :
    (s.turnNow = .engine ∧ engineTurn { s with turns := s.turns.tail } = .next t) ∨
    (s.turnNow = .host ∧ hostTurn { s with turns := s.turns.tail } = .next t) ∨
    (s.turnNow = .withdraw ∧ withdrawStep { s with turns := s.turns.tail } = .next t) ∨
    (s.turnNow = .consumer ∧ ackStep { s with turns := s.turns.tail } = .next t) ∨
    (s.turnNow = .reset ∧ resetStep { s with turns := s.turns.tail } = .next t) := by
  simp only [step, turn] at h
  cases hn : s.turnNow <;> rw [hn] at h <;> simp only [runTurn] at h <;> simp [h]

/-- Everything a step does to XDE, to the host's program and to the schedule: the five ways XDE is written,
with the turn and the condition of each. -/
theorem step_next_xde {s t : State} (h : step s = .next t) :
    (t.host = s.host ∨ t.host = s.host.tail) ∧ t.turns = s.turns.tail ∧
    ((t.xde = s.xde) ∨
      (s.turnNow = .engine ∧ s.xde.busy = true ∧
        t.xde = (bodyOf (decodeCommand s.xde.latchW) s.xde).xde.finish) ∨
      (s.turnNow = .host ∧ ∃ w d rest, s.host = .present w d :: rest ∧ dataCountOk w d = true ∧
        s.xde.cmdReady w = true ∧ t.xde = s.xde.accept w d) ∨
      (s.turnNow = .consumer ∧ s.xde.aead.valid = true ∧ t.xde = s.xde.dropAead) ∨
      (s.turnNow = .reset ∧ t.xde = Xde.reset)) := by
  obtain ⟨hn, h⟩ | ⟨hn, h⟩ | ⟨hn, h⟩ | ⟨hn, h⟩ | ⟨hn, h⟩ := step_next_cases h
  · obtain ⟨hb, rfl⟩ | ⟨-, rfl⟩ := (engineTurn_next_iff _ _).1 h
    · exact ⟨.inl rfl, rfl, .inr (.inl ⟨hn, hb, rfl⟩)⟩
    · exact ⟨.inl rfl, rfl, .inl rfl⟩
  · obtain ⟨-, rfl⟩ | ⟨w, d, rest, hh, hc, ⟨hr, rfl⟩ | ⟨-, rfl⟩⟩ | ⟨r, rest, hh, rfl⟩ | ⟨rest, hh, rfl⟩ :=
      (hostTurn_next_iff _ _).1 h
    · exact ⟨.inl rfl, rfl, .inl rfl⟩
    · exact ⟨.inr (congrArg List.tail hh).symm, rfl,
        .inr (.inr (.inl ⟨hn, w, d, rest, hh, hc, hr, rfl⟩))⟩
    · exact ⟨.inl rfl, rfl, .inl rfl⟩
    · exact ⟨.inr (congrArg List.tail hh).symm, rfl, .inl rfl⟩
    · refine ⟨?_, rfl, .inl rfl⟩
      by_cases hb : s.xde.busy = true <;> simp_all
  · obtain ⟨w, d, rest, hh, rfl⟩ | ⟨-, rfl⟩ := (withdrawStep_next_iff _ _).1 h
    · exact ⟨.inr (congrArg List.tail hh).symm, rfl, .inl rfl⟩
    · exact ⟨.inl rfl, rfl, .inl rfl⟩
  · obtain ⟨hv, rfl⟩ | ⟨-, rfl⟩ := (ackStep_next_iff _ _).1 h
    · exact ⟨.inl rfl, rfl, .inr (.inr (.inr (.inl ⟨hn, hv, rfl⟩)))⟩
    · exact ⟨.inl rfl, rfl, .inl rfl⟩
  · obtain rfl := (resetStep_next_iff _ _).1 h
    exact ⟨.inl rfl, rfl, .inr (.inr (.inr (.inr ⟨hn, rfl⟩)))⟩

/-- A step of a given turn is that turn, with the schedule moved on. -/
theorem step_of_turnNow {s : State} {m : Turn} (h : s.turnNow = m) :
    step s = runTurn m { s with turns := s.turns.tail } := by
  simp only [step, turn, h]

@[simp] theorem turnNow_cons (x : Xde) (h : List HostMove) (m : Turn) (ms : List Turn) (o : Output) :
    (State.mk x h (m :: ms) o).turnNow = m := rfl

theorem turnNow_nil (x : Xde) (h : List HostMove) (o : Output) :
    (State.mk x h [] o).turnNow = if x.busy then .engine else .host := rfl

/-- The next step of a placed encoding is its instruction (the host's `withFetchWord`). -/
theorem step_place_command (s : State) (w : CommandWord) :
    step (place (.command w) s) =
      exec (decode (.command w))
        { s with xde := s.xde.accept w (List.replicate (dlenField w).toNat 0#8) } := rfl

theorem step_place_read (s : State) (rsel : BitVec 2) :
    step (place (.read rsel) s) = exec (decode (.read rsel)) s := rfl

end Sys2Proof.Machine
end

