-- ==== Sys2Proof/Laws/Run.lean ====
section
/-!
SUPPORT. Runs: what every step keeps, every run keeps; a run cut in two; and the events of a run.
-/

namespace Sys2Proof.Machine

@[simp] theorem run_zero (s : State) : core.run 0 s = .next s := rfl

theorem run_succ_of_step {s t : State} (k : Nat) (h : step s = .next t) :
    core.run (k + 1) s = core.run k t := by
  refine (Host.Core.run.eq_2 core s k).trans ?_
  have h' : core.step s = .next t := h
  rw [h']

/-- A run of `k + 1` steps that answers a next state took a first step that did. -/
theorem run_succ_next {k : Nat} {s t : State} (h : core.run (k + 1) s = .next t) :
    ∃ u, step s = .next u ∧ core.run k u = .next t := by
  have h := (Host.Core.run.eq_2 core s k).symm.trans h
  cases hs : core.step s with
  | next u => rw [hs] at h; exact ⟨u, hs, h⟩
  | fault f => cases f
  | refused r => rw [hs] at h; cases h

/-- What every step keeps, every run keeps. -/
theorem run_keeps {P : State → Prop} (hstep : ∀ s t, P s → step s = .next t → P t) :
    ∀ (k : Nat) (s t : State), P s → core.run k s = .next t → P t
  | 0, _, _, hp, h => by cases h; exact hp
  | k + 1, s, t, hp, h => by
    obtain ⟨u, hu, hr⟩ := run_succ_next h
    exact run_keeps hstep k u t (hstep s u hp hu) hr

/-- A run of `j + k` steps is a run of `j` steps and then one of `k`. -/
theorem run_add {s u : State} (j k : Nat) (h : core.run j s = .next u) :
    core.run (j + k) s = core.run k u := by
  induction j generalizing s with
  | zero => cases h; rw [Nat.zero_add]
  | succ j ih =>
    obtain ⟨v, hv, hr⟩ := run_succ_next h
    rw [Nat.succ_add, run_succ_of_step _ hv]
    exact ih hr

/-! ### Events -/

@[simp] theorem applyEvent_accepted (x : Xde) (w : CommandWord) (d : List Byte) :
    applyEvent x (.accepted w d) = x := rfl
@[simp] theorem applyEvent_completed (x : Xde) (w : CommandWord) (d : List Byte) :
    applyEvent x (.completed w d) = completeCommand w d x := rfl
@[simp] theorem applyEvent_acknowledged (x : Xde) : applyEvent x .acknowledged = x.dropAead := rfl
@[simp] theorem applyEvent_wasReset (x : Xde) : applyEvent x .wasReset = Xde.reset := rfl

@[simp] theorem acceptedCommand_accepted (w : CommandWord) (d : List Byte) :
    (Event.accepted w d).acceptedCommand = some (w, d) := rfl
@[simp] theorem acceptedCommand_completed (w : CommandWord) (d : List Byte) :
    (Event.completed w d).acceptedCommand = none := rfl
@[simp] theorem acceptedCommand_acknowledged : Event.acknowledged.acceptedCommand = none := rfl
@[simp] theorem acceptedCommand_wasReset : Event.wasReset.acceptedCommand = none := rfl
@[simp] theorem completedCommand_accepted (w : CommandWord) (d : List Byte) :
    (Event.accepted w d).completedCommand = none := rfl
@[simp] theorem completedCommand_completed (w : CommandWord) (d : List Byte) :
    (Event.completed w d).completedCommand = some (w, d) := rfl
@[simp] theorem completedCommand_acknowledged : Event.acknowledged.completedCommand = none := rfl
@[simp] theorem completedCommand_wasReset : Event.wasReset.completedCommand = none := rfl

/-- A command taken as a whole is the acceptance and then the command's body. -/
theorem completeCommand_eq (w : CommandWord) (d : List Byte) (x : Xde) :
    completeCommand w d x = (bodyOf (decodeCommand w) (x.accept w d)).xde.finish := by
  unfold completeCommand
  rw [exec_command]
  rfl

@[simp] theorem events_zero (s : State) : s.events 0 = [] := rfl

theorem events_succ_of_step {s t : State} (k : Nat) (h : step s = .next t) :
    s.events (k + 1) = s.nextEvent ++ t.events k := by
  simp [State.events, h]

end Sys2Proof.Machine
end

