-- ==== Sys2Proof/Tests/Slice0.lean ====
section
/-!
SUPPORT. Tests. Expected values come from spec/95_test_vectors.md (its ids stand in the names or comments) or
are written out from spec/30_encoding.md; AES values enter as premises only (V-KAT1, V-KAT2). Then one
witness for the hypotheses of each statement that has any.
-/

namespace Sys2Proof.Tests

open Sys2Proof Sys2Proof.Machine

/-! ### WellFormed -/

/-- The one check refuses an illegal word for each row of R70, and takes a word of no row. -/
theorem test_wf_refuses_legal_words_as_illegal :
    (Instr.illegal 0x1000200000000000#64).wf = false ∧ (Instr.illegal 0x2000180000000000#64).wf = false ∧
    (Instr.illegal 0x300018000000001C#64).wf = false ∧ (Instr.illegal 0x4000100000000000#64).wf = false ∧
    (Instr.illegal 0x5000000000000000#64).wf = false ∧ (Instr.illegal 0x0000000000000000#64).wf = true := by
  refine ⟨?_, ?_, ?_, ?_, ?_, ?_⟩ <;> decide

/-! ### Decode: T-DEC and R64, R74, word by word -/

theorem test_decode_ldkey : decodeCommand 0x1000200000000000#64 = .ldkey 32#8 := by decide
theorem test_decode_ldkey_dlen255 : decodeCommand 0x1000FF0000000000#64 = .ldkey 255#8 := by decide
theorem test_decode_sealprep : decodeCommand 0x2000180000000000#64 = .sealprep 24#8 := by decide
theorem test_decode_openprep : decodeCommand 0x300018000000001C#64 = .openprep 24#8 28#40 := by decide
theorem test_decode_openprep_max :
    decodeCommand 0x300000FFFFFFFFFF#64 = .openprep 0#8 0xFFFFFFFFFF#40 := by decide
theorem test_decode_dbl : decodeCommand 0x4000100000000000#64 = .dbl 16#8 := by decide
theorem test_decode_clr : decodeCommand 0x5000000000000000#64 = .clr := by decide
theorem test_decode_reads :
    decodeRead 0b00#2 = .rdStatus ∧ decodeRead 0b01#2 = .rdParam ∧ decodeRead 0b10#2 = .rdResult ∧
    decodeRead 0b11#2 = .rdReserved := by decide
theorem test_decode_illegal :
    ∀ w ∈ [0x1000200000000001#64, 0x5000000000000001#64, 0x5800000000000000#64, 0x1100200000000000#64,
      0x0000000000000000#64, 0x6000000000000000#64, 0xF000000000000000#64, 0xF0FF00FFFFFFFFFF#64,
      0x5000010000000000#64, 0x3010180000000010#64], decodeCommand w = .illegal w := by
  simp only [List.forall_mem_cons]
  refine ⟨?_, ?_, ?_, ?_, ?_, ?_, ?_, ?_, ?_, ?_, List.forall_mem_nil _⟩ <;> decide

/-- R68's two examples. -/
theorem test_encode_examples :
    encode (.ldkey 32#8) = .command 0x1000200000000000#64 ∧
    encode (.openprep 24#8 28#40) = .command 0x300018000000001C#64 := by
  constructor <;> decide

/-- The host's entry: a table word of 64 bits, a selector of 2 bits, and bits that are neither. -/
theorem test_decodeTableWord :
    decodeTableWord 64 0x1000000000000000 = some (.ldkey 0#8) ∧
    decodeTableWord 64 0x5000000000000000 = some .clr ∧
    decodeTableWord 8 0 = some .rdStatus ∧ decodeTableWord 8 3 = some .rdReserved ∧
    decodeTableWord 8 4 = none ∧ decodeTableWord 72 0 = none ∧
    decodeTableWord 0 0 = some (.illegal 0#64) := by decide

/-! ### DBLU: T-DBL -/

theorem test_dbl128_vectors :
    ∀ p ∈ [(0x00000000000000000000000000000001#128, 0x00000000000000000000000000000002#128),
      (0x80000000000000000000000000000000#128, 0x00000000000000000000000000000087#128),
      (0xffffffffffffffffffffffffffffffff#128, 0xffffffffffffffffffffffffffffff79#128),
      (0x40000000000000000000000000000000#128, 0x80000000000000000000000000000000#128),
      (0x00000000000000000000000000000080#128, 0x00000000000000000000000000000100#128),
      (0xc0000000000000000000000000000000#128, 0x80000000000000000000000000000087#128),
      (0x00000000000000008000000000000000#128, 0x00000000000000010000000000000000#128)],
      dbl128 (bytes128 p.1) = bytes128 p.2 := by
  simp only [List.forall_mem_cons]
  refine ⟨?_, ?_, ?_, ?_, ?_, ?_, ?_, List.forall_mem_nil _⟩ <;> decide

/-- The byte order of a block: byte 0 is the most significant (R11), by hand from R10's example. -/
theorem test_bytes128_byte_order :
    (bytes128 0x000158004142434445464748494a4b4c#128)[1] = 0x01#8 ∧
    (bytes128 0x000158004142434445464748494a4b4c#128)[15] = 0x4c#8 := by decide

/-! ### A small state -/

/-- XDE with a command in flight. -/
def inFlight (w : CommandWord) (d : List Byte) : State :=
  { State.reset with xde := Xde.reset.accept w d, turns := [.engine] }

/-- XDE with a key instance: the key is `n` bytes `b`, K1 as R44 (b) has it. -/
def keyedXde (b : Byte) : Xde :=
  { Xde.reset with mk := Vector.replicate 32 b, k1 := subkeyOf (Vector.replicate 32 b), keyed := true }

/-- The state after a step, and `d` for a step that answers none. -/
def after (r : Result) (d : State) : State :=
  match r with
  | .next t => t
  | .fault _ => d
  | .refused _ => d

/-- STATUS after the one step of a command in flight, from a given XDE. -/
def statusAfter (x : Xde) (w : CommandWord) (d : List Byte) : BitVec 32 :=
  (after (step { State.reset with xde := x.accept w d, turns := [.engine] }) State.reset).xde.status

/-- The nonce of W1 ("ABCDEFGHIJKLMNOPQRSTUVWX"). -/
def nonceW1 : List Byte :=
  [0x41#8, 0x42#8, 0x43#8, 0x44#8, 0x45#8, 0x46#8, 0x47#8, 0x48#8, 0x49#8, 0x4a#8, 0x4b#8, 0x4c#8] ++
  [0x4d#8, 0x4e#8, 0x4f#8, 0x50#8, 0x51#8, 0x52#8, 0x53#8, 0x54#8, 0x55#8, 0x56#8, 0x57#8, 0x58#8]

/-! ### LDKEY -/

/-- T-LDK-1, T-LDK-4, T-LDK-5, T-LDK-6, T-LDK-10: STATUS. -/
theorem test_ldkey_status :
    statusAfter Xde.reset 0x1000200000000000#64 (List.replicate 32 0x01#8) = 0x02#32 ∧
    statusAfter Xde.reset 0x10001F0000000000#64 (List.replicate 31 0x01#8) = 0x10#32 ∧
    statusAfter Xde.reset 0x1000210000000000#64 (List.replicate 33 0x01#8) = 0x10#32 ∧
    statusAfter (keyedXde 1#8) 0x1000000000000000#64 [] = 0x10#32 ∧
    statusAfter (keyedXde 1#8) 0x1000200000000010#64 (List.replicate 32 0x03#8) = 0x42#32 := by
  refine ⟨?_, ?_, ?_, ?_, ?_⟩ <;> rfl

/-- V-KAT2: K1 after LDKEY of 03^32, given L (the carry path, T-DBL-16). -/
theorem test_ldkey_kat2
    (hL : Config.aes256Enc (Vector.replicate 32 0x03#8) (Vector.replicate 16 0x00#8)
      = bytes128 0x91c08762876dccf9ba204a33768fa5fe#128) :
    subkeyOf (Vector.replicate 32 0x03#8) = bytes128 0x23810ec50edb99f374409466ed1f4b7b#128 := by
  show dbl128 (Config.aes256Enc (Vector.replicate 32 0x03#8) (Vector.replicate 16 0x00#8)) = _
  rw [hL]
  decide

/-! ### SEALPREP and OPENPREP -/

/-- T-SEAL-1, T-SEAL-2, T-SEAL-3, T-SEAL-6, T-SEAL-7: STATUS. -/
theorem test_sealprep_status :
    statusAfter Xde.reset 0x2000180000000000#64 nonceW1 = 0x50#32 ∧
    statusAfter (keyedXde 1#8) 0x2000180000000000#64 nonceW1 = 0x06#32 ∧
    statusAfter (keyedXde 1#8) 0x2000170000000000#64 (nonceW1.take 23) = 0x22#32 ∧
    statusAfter Xde.reset 0x2000170000000000#64 (nonceW1.take 23) = 0x50#32 ∧
    statusAfter (keyedXde 1#8) 0x2000180000000001#64 nonceW1 = 0x42#32 := by
  refine ⟨?_, ?_, ?_, ?_, ?_⟩ <;> rfl

/-- V-KAT1: X1, X2 and the IV of the W1 nonce under K1 of V-KAT1. -/
theorem test_sealprep_kat1_blocks :
    xorBytes (blockM1 (firstBytes 24 nonceW1)) (bytes128 0xe531954aca063d5b8d9c47a47d4cc6f0#128)
      = bytes128 0xe530cd4a8b447e1fc8da00ec34068dbc#128 ∧
    xorBytes (blockM2 (firstBytes 24 nonceW1)) (bytes128 0xe531954aca063d5b8d9c47a47d4cc6f0#128)
      = bytes128 0xe533cd4a8b447e1fc8da00ec34068dbc#128 ∧
    (nonceSuffix (firstBytes 24 nonceW1)).toList = nonceW1.drop 12 := by decide

/-- T-OPEN-1, T-OPEN-2, T-OPEN-6, T-OPEN-7: STATUS. -/
theorem test_openprep_status :
    statusAfter (keyedXde 3#8) 0x3000180000000010#64 nonceW1 = 0x06#32 ∧
    statusAfter (keyedXde 3#8) 0x300018000000000F#64 nonceW1 = 0x32#32 ∧
    statusAfter (keyedXde 3#8) 0x30000C0000000004#64 (nonceW1.take 12) = 0x22#32 ∧
    statusAfter Xde.reset 0x30000C0000000004#64 (nonceW1.take 12) = 0x50#32 := by
  refine ⟨?_, ?_, ?_, ?_⟩ <;> rfl

/-- T-OPEN-4, T-OPEN-5: BODYLEN. -/
theorem test_openprep_bodylen :
    bodyLength 28#40 = 12#40 ∧ bodyLength 0xFFFFFFFFFF#40 = 0xFFFFFFFFEF#40 ∧ bodyLength 16#40 = 0#40 := by
  decide

/-! ### DBL, CLR, ILLEGAL -/

/-- T-CMD-1 (R91's example): RESULT. -/
theorem test_dbl_result :
    (after (step (inFlight 0x4000100000000000#64
      (bytes128 0x80000000000000000000000000000001#128).toList)) State.reset).xde.result
      = bytes128 0x00000000000000000000000000000085#128 := by decide

/-- T-CMD-1, T-CMD-2, T-CMD-3, T-CMD-6: STATUS. -/
theorem test_dbl_status :
    statusAfter Xde.reset 0x4000100000000000#64 (List.replicate 16 0x80#8) = 0x08#32 ∧
    statusAfter Xde.reset 0x4000080000000000#64 (List.replicate 8 0x00#8) = 0x60#32 ∧
    statusAfter { Xde.reset with resValid := true } 0x4000000000000000#64 [] = 0x60#32 ∧
    statusAfter Xde.reset 0x4000100000000001#64 (List.replicate 16 0x80#8) = 0x40#32 := by
  refine ⟨?_, ?_, ?_, ?_⟩ <;> rfl

/-- T-CLR-2 and R114: XDE as after reset, from a keyed XDE with a result. -/
theorem test_clr_resets :
    (after (step { State.reset with
      xde := { (keyedXde 1#8).accept 0x5000000000000000#64 [] with resValid := true }
      turns := [.engine] }) State.reset).xde = Xde.reset := by rfl

/-- T-CLR-3, T-ILL-1, T-ILL-2, T-ILL-4: STATUS. -/
theorem test_illegal_status :
    statusAfter { keyedXde 1#8 with aead := { Aead.zero with valid := true } } 0x5000010000000000#64 [0#8]
      = 0x46#32 ∧
    statusAfter Xde.reset 0x0000000000000000#64 [] = 0x40#32 ∧
    statusAfter (keyedXde 1#8) 0x7000000000000000#64 [] = 0x42#32 := by
  refine ⟨?_, ?_, ?_⟩ <;> rfl

/-! ### Reads, T-RD -/

theorem test_read_status :
    step { State.reset with
        xde := { Xde.reset with keyed := true, aead := { Aead.zero with valid := true } }
        host := [.read 0b00#2] } =
      .next { State.reset with
        xde := { Xde.reset with keyed := true, aead := { Aead.zero with valid := true } }
        out := .rdata (bytes128 0x06#128) } := by rfl

theorem test_read_param :
    step { State.reset with host := [.read 0b01#2] }
      = .next { State.reset with out := .rdata (bytes128 0x01102018#128) } := by rfl

theorem test_read_result :
    step { State.reset with
        xde := { Xde.reset with result := bytes128 0x85#128, resValid := true }, host := [.read 0b10#2] }
      = .next { State.reset with
        xde := { Xde.reset with result := bytes128 0x85#128, resValid := true }
        out := .rdata (bytes128 0x85#128) } := by rfl

theorem test_read_reserved :
    step { State.reset with host := [.read 0b11#2] }
      = .next { State.reset with out := .rdata (bytes128 0#128) } := by rfl

/-! ### Placing a table word for the host -/

theorem test_withFetchWord_ldkey :
    step (State.reset.withFetchWord 64 0x1000000000000000)
      = exec (.ldkey 0#8) { State.reset with xde := Xde.reset.accept 0x1000000000000000#64 [] } := by rfl

theorem test_withFetchWord_read :
    step (State.reset.withFetchWord 8 2) = exec .rdResult State.reset := by rfl

/-! ### Witnesses: each statement's hypotheses can be met -/

/-- A hand-off that satisfies R44 (f): one DERIVE of the zero key, its subkey and the zero nonce. -/
def pendingXde : Xde :=
  { keyedXde 0#8 with
    aead := ⟨true, .sealMode,
      (derive (Vector.replicate 32 0#8) (subkeyOf (Vector.replicate 32 0#8)) (Vector.replicate 24 0#8)).1,
      (derive (Vector.replicate 32 0#8) (subkeyOf (Vector.replicate 32 0#8)) (Vector.replicate 24 0#8)).2,
      0#40⟩ }

/-- The invariants hold of a keyed XDE with a hand-off pending and an illegal word in flight. -/
theorem pendingXde_inv : (pendingXde.accept 0x7000000000000000#64 []).Inv where
  unkeyedZero h := by cases h
  keyedSubkey _ := rfl
  noHandOffZero h := by cases h
  noResultZero _ := rfl
  idleLatchClear h := by cases h
  handOffDerived _ := ⟨Vector.replicate 32 0#8, Vector.replicate 24 0#8, rfl⟩
  sealNoBody _ := rfl
  latchCount _ := by decide
  busyNoErr _ := rfl
  heldNotInFlight _ h := absurd h (by decide)

theorem witness_DecodeEncodeRoundTrip :
    (Instr.illegal 0#64).wf = true ∧ (Instr.openprep 255#8 0xFFFFFFFFFF#40).wf = true := by decide

theorem witness_AssemblerWritesTheCommand :
    (List.replicate 255 0#8 : List Byte).length < 2 ^ 8 ∧ 0xFFFFFFFFFF < 2 ^ 40 :=
  ⟨by rw [List.length_replicate]; decide, by decide⟩

/-- Both sides of the bound 0x80. -/
theorem witness_DoublingLaws :
    (bytes128 0x7fffffffffffffffffffffffffffffff#128)[0].toNat < 0x80 ∧
    0x80 ≤ (bytes128 0x80000000000000000000000000000000#128)[0].toNat := by decide

/-- K1 zero, nonce zero: X1 and X2 are then the tags. -/
theorem witness_DeriveKeyAndIv :
    let k1 : Block := zeroBytes 16
    let n : Bytes 24 := zeroBytes 24
    let x1 : Block := bytes128 0x00015800000000000000000000000000#128
    let x2 : Block := bytes128 0x00025800000000000000000000000000#128
    x1[0] = 0x00#8 ^^^ k1[0] ∧ x1[1] = 0x01#8 ^^^ k1[1] ∧ x1[2] = 0x58#8 ^^^ k1[2] ∧
    x1[3] = 0x00#8 ^^^ k1[3] ∧ (∀ (i : Fin 12), x1[4 + i.val] = n[i.val] ^^^ k1[4 + i.val]) ∧
    x2[0] = 0x00#8 ^^^ k1[0] ∧ x2[1] = 0x02#8 ^^^ k1[1] ∧ x2[2] = 0x58#8 ^^^ k1[2] ∧
    x2[3] = 0x00#8 ^^^ k1[3] ∧ (∀ (i : Fin 12), x2[4 + i.val] = n[i.val] ^^^ k1[4 + i.val]) := by decide

theorem nonces_same_prefix : ∀ i : Fin 12, (firstBytes 24 (List.replicate 24 0#8))[i.val]
    = (firstBytes 24 (List.replicate 12 0#8 ++ [1#8]))[i.val] := by decide

theorem nonces_same_suffix : ∀ i : Fin 12, (firstBytes 24 (List.replicate 24 0#8))[12 + i.val]
    = (firstBytes 24 [1#8])[12 + i.val] := by decide

/-- Two different nonces with one prefix, two with one suffix; a bijection on blocks (R110 (c)'s premise
names a property of the parameter AES256_ENC, which has no body: only its shape can be witnessed). -/
theorem witness_DerivationLaws :
    (∃ n n' : Bytes 24, n ≠ n' ∧ ∀ (i : Nat) (h : i < 12), n[i] = n'[i]) ∧
    (∃ n n' : Bytes 24, n ≠ n' ∧ ∀ (i : Nat) (h : i < 12), n[12 + i] = n'[12 + i]) ∧
    (∃ f : Block → Block, Function.Bijective f) :=
  ⟨⟨firstBytes 24 (List.replicate 24 0#8), firstBytes 24 (List.replicate 12 0#8 ++ [1#8]),
      by decide, fun i h => nonces_same_prefix ⟨i, h⟩⟩,
    ⟨firstBytes 24 (List.replicate 24 0#8), firstBytes 24 [1#8],
      by decide, fun i h => nonces_same_suffix ⟨i, h⟩⟩,
    ⟨id, Function.bijective_id⟩⟩

theorem witness_LdkeyLoadsKeyAndSubkey :
    (inFlight 0x1000200000000000#64 (List.replicate 32 1#8)).xde.latchD
      = (Vector.replicate 32 1#8 : Bytes 32).toList := by decide

/-- The lengths next to 32, and the missing key; then the next SEALPREP. -/
theorem witness_LdkeyFailureDropsTheKey :
    (31#8).toNat ≠ 32 ∧ (33#8).toNat ≠ 32 ∧ (0#8).toNat ≠ 32 ∧
    ∃ t u : State, exec (.ldkey 31#8) State.reset = .next t ∧
      exec (.sealprep 24#8) { t with xde := t.xde.accept 0x2000180000000000#64 [] } = .next u :=
  ⟨by decide, by decide, by decide, _, _, rfl, rfl⟩

theorem witness_SealprepHandsOff :
    ((keyedXde 1#8).accept 0x2000180000000000#64 nonceW1).keyed = true ∧
    ((keyedXde 1#8).accept 0x2000180000000000#64 nonceW1).latchD = (firstBytes 24 nonceW1).toList :=
  ⟨rfl, by decide⟩

/-- CTLEN at its least legal value. -/
theorem witness_OpenprepHandsOff :
    ((keyedXde 1#8).accept 0x3000180000000010#64 nonceW1).keyed = true ∧
    ((keyedXde 1#8).accept 0x3000180000000010#64 nonceW1).latchD = (firstBytes 24 nonceW1).toList ∧
    16 ≤ (16#40).toNat :=
  ⟨rfl, by decide, by decide⟩

/-- One state for each clause: unkeyed; keyed with DLEN 23 and 25; keyed with CTLEN 15. -/
theorem witness_PrepErrorsLeaveNoOutput :
    State.reset.xde.keyed = false ∧ (keyedXde 1#8).keyed = true ∧ (23#8).toNat ≠ 24 ∧ (25#8).toNat ≠ 24 ∧
    (24#8).toNat = 24 ∧ (15#40).toNat < 16 :=
  ⟨rfl, rfl, by decide, by decide, by decide, by decide⟩

theorem witness_DblDoublesTheBlock :
    (inFlight 0x4000100000000000#64 (List.replicate 16 1#8)).xde.latchD
      = (Vector.replicate 16 1#8 : Block).toList := by decide

theorem witness_DblFailureLeavesNoResult : (15#8).toNat ≠ 16 ∧ (17#8).toNat ≠ 16 ∧ (0#8).toNat ≠ 16 := by
  decide

theorem witness_ClrLeavesTheResetState :
    ∃ t u : State, exec .clr { State.reset with xde := pendingXde } = .next t ∧
      exec (.openprep 24#8 16#40) { t with xde := t.xde.accept 0x3000180000000010#64 [] } = .next u :=
  ⟨_, _, rfl, rfl⟩

theorem witness_SealAndOpenHandOffTheSameKey :
    (keyedXde 1#8).keyed = true ∧ 16 ≤ (16#40).toNat ∧
    ∃ t u : State, exec (.sealprep 24#8) { State.reset with xde := keyedXde 1#8 } = .next t ∧
      exec (.openprep 24#8 16#40) { State.reset with xde := keyedXde 1#8 } = .next u :=
  ⟨rfl, by decide, _, _, rfl, rfl⟩

/-- A completion of a word for each opcode: CompletionWritesOnlyItsRegisters, FirstErrorInPriorityOrder,
OutcomesPerCommand and AesInvocationsPerCompletion. -/
theorem witness_completions :
    ∀ w ∈ [0x1000200000000000#64, 0x2000180000000000#64, 0x300018000000001C#64, 0x4000100000000000#64,
      0x5000000000000000#64, 0x0000000000000000#64],
      ∃ t : State, exec (decodeCommand w) { State.reset with xde := keyedXde 1#8 } = .next t := by
  intro w _
  exact ⟨_, (exec_command w _).trans rfl⟩

/-- BUSY with the engine next, BUSY with no turn scheduled, and a read next, scheduled or not. -/
theorem witness_StepRunsTheDecodedInstruction :
    (inFlight 0x5000000000000000#64 []).xde.busy = true ∧
    (inFlight 0x5000000000000000#64 []).turns = .engine :: [] ∧
    { inFlight 0x5000000000000000#64 [] with turns := [] }.turns = [] ∧
    { State.reset with host := [.read 0b10#2], turns := [.host] }.turns = .host :: [] ∧
    { State.reset with host := [.read 0b10#2] }.host = .read 0b10#2 :: [] ∧
    { State.reset with host := [.read 0b10#2] }.xde.busy = false :=
  ⟨rfl, rfl, rfl, rfl, rfl, rfl⟩

/-- Ready: an idle XDE; held: a SEALPREP behind a hand-off, and any word behind a command in flight. -/
theorem witness_AcceptOrHold :
    ([] : List Byte).length = (0x5000000000000000#64).toNat / 2 ^ 40 % 2 ^ 8 ∧
    (List.replicate 24 0#8 : List Byte).length = (0x2000180000000000#64).toNat / 2 ^ 40 % 2 ^ 8 ∧
    Xde.reset.cmdReady 0x5000000000000000#64 = true ∧
    pendingXde.cmdReady 0x2000180000000000#64 = false ∧ pendingXde.cmdReady 0x5000000000000000#64 = true ∧
    (inFlight 0#64 []).xde.cmdReady 0x5000000000000000#64 = false :=
  ⟨by decide, by decide, by decide, rfl, rfl, by decide⟩

/-- The SEALPREP of W1 presented behind a pending hand-off. -/
def heldState : State :=
  { State.reset with xde := pendingXde, host := [.present 0x2000180000000000#64 nonceW1] }

/-- 95_test_vectors.md, the held SEALPREP: STATUS stays 0x06, and 0x02 after ACK, when it may be accepted. -/
theorem test_held_then_acknowledged :
    (after (core.run 1 heldState) State.reset).xde.status = 0x06#32 ∧
    (after (core.run 1 heldState) State.reset).out = .cmdReady false ∧
    (after (core.run 2 { heldState with turns := [.host, .consumer] }) State.reset).xde.status = 0x02#32 ∧
    (after (core.run 3 { heldState with turns := [.host, .consumer, .host] }) State.reset).out
      = .cmdReady true := by
  refine ⟨?_, ?_, ?_, ?_⟩ <;> rfl

theorem witness_HeldHostWaitsForEver :
    heldState.xde.busy = false ∧ heldState.xde.aead.valid = true ∧
    (0x2000180000000000#64).toNat / 2 ^ 60 = 2 ∧
    heldState.host = .present 0x2000180000000000#64 nonceW1 :: [] ∧
    nonceW1.length = (0x2000180000000000#64).toNat / 2 ^ 40 % 2 ^ 8 ∧
    (∀ m ∈ [Turn.host, .engine, .host], m = .host ∨ m = .engine) :=
  ⟨rfl, rfl, by decide, rfl, by decide, by decide⟩

/-- One state for each clause: an acknowledge, a reset, a CLR presented instead. -/
theorem witness_HeldCommandIsAcceptedOnceReleased :
    heldState.xde.busy = false ∧ heldState.xde.aead.valid = true ∧
    { heldState with turns := [.host, .consumer, .host] }.turns = [.host, .consumer, .host] ∧
    { heldState with turns := [.host, .reset, .host] }.turns = [.host, .reset, .host] ∧
    { heldState with
      host := [.present 0x2000180000000000#64 nonceW1, .present 0x5000000000000000#64 [],
        .present 0x2000180000000000#64 nonceW1] }.host
      = .present 0x2000180000000000#64 nonceW1 :: .present 0x5000000000000000#64 [] ::
        .present 0x2000180000000000#64 nonceW1 :: [] :=
  ⟨rfl, rfl, rfl, rfl, rfl⟩

/-- A WAIT with a command in flight, and with none. -/
theorem witness_WaitPollsUntilIdle :
    { inFlight 0#64 [] with host := [.wait], turns := [.host] }.turnNow = .host ∧
    (inFlight 0#64 []).xde.busy = true ∧
    { State.reset with host := [.wait] }.turnNow = .host ∧ State.reset.xde.busy = false :=
  ⟨rfl, rfl, rfl, rfl⟩

theorem witness_AcknowledgeZeroesTheHandOff :
    pendingXde.aead.valid = true ∧ Xde.reset.aead.valid = false ∧
    { State.reset with turns := [.consumer] }.turns = .consumer :: [] := ⟨rfl, rfl, rfl⟩

theorem witness_ResetSetsEveryRegister :
    { State.reset with xde := pendingXde, turns := [.reset] }.turns = .reset :: [] := rfl

/-- The one refusal. -/
theorem witness_OnlyAWrongDataCountIsRefused :
    step { State.reset with host := [.present 0x1000200000000000#64 []] }
      = .refused .dataCountMismatch := by rfl

theorem witness_AcknowledgeCommutesWithCompletion :
    (pendingXde.accept 0x7000000000000000#64 []).Inv ∧
    (pendingXde.accept 0x7000000000000000#64 []).busy = true ∧
    (pendingXde.accept 0x7000000000000000#64 []).aead.valid = true := ⟨pendingXde_inv, rfl, rfl⟩

/-- EveryStepKeepsTheInvariant and RegistersAreWrittenOnlyBy: a step from a state with the invariants. -/
theorem witness_steps :
    (pendingXde.accept 0x7000000000000000#64 []).Inv ∧
    ∃ t : State, step { State.reset with
      xde := pendingXde.accept 0x7000000000000000#64 [], turns := [.consumer] } = .next t :=
  ⟨pendingXde_inv, _, rfl⟩

/-- Two states that differ in MK, K1 and the key bytes still to come, and a run from the first. -/
theorem witness_SecretsNeverReachTheHost :
    let s : State := { State.reset with
      xde := keyedXde 1#8, host := [.present 0x1000200000000000#64 (List.replicate 32 1#8)] }
    let s' : State := { State.reset with
      xde := keyedXde 3#8, host := [.present 0x1000200000000000#64 (List.replicate 32 3#8)] }
    SameToHost s s' ∧ s.xde.mk ≠ s'.xde.mk ∧ ∃ t : State, core.run 1 s = .next t := by
  refine ⟨?_, by decide, _, rfl⟩
  refine ⟨rfl, rfl, rfl, rfl, rfl, rfl, rfl, rfl, rfl, ⟨rfl, fun _ _ => rfl⟩,
    .cons ⟨rfl, ⟨by decide, fun n h => ?_⟩⟩ .nil, rfl, rfl⟩
  rw [test_decode_ldkey] at h
  cases h

/-- A hand-off pending, and a host that presents a SEALPREP. -/
theorem witness_HandOffIsHeldUntilReleased :
    heldState.xde.aead.valid = true ∧
    (heldState.xde.busy = true →
      heldByHandOff heldState.xde.latchW = false ∧ decodeCommand heldState.xde.latchW ≠ .clr) ∧
    (∀ m ∈ heldState.turns, m ≠ .consumer ∧ m ≠ .reset) ∧
    (∀ w d, HostMove.present w d ∈ heldState.host → decodeCommand w ≠ .clr) ∧
    ∃ t : State, core.run 1 heldState = .next t := by
  refine ⟨rfl, fun h => (by cases h), fun m hm => (by cases hm), fun w d hm => ?_, _, rfl⟩
  cases List.mem_singleton.1 hm
  rw [test_decode_sealprep]
  simp

/-- An acknowledge while a command is in flight, and the events of the run. -/
theorem witness_RunIsTheFoldOfCompletions :
    let s : State := { State.reset with
      xde := pendingXde, host := [.present 0x7000000000000000#64 []], turns := [.host, .consumer, .engine] }
    s.xde.busy = false ∧ (∃ t : State, core.run 3 s = .next t) ∧
    s.events 3 = [.accepted 0x7000000000000000#64 [], .acknowledged, .completed 0x7000000000000000#64 []] :=
  ⟨rfl, ⟨_, rfl⟩, rfl⟩

/-- A program that ends, and one that is held. -/
theorem witness_RunEndsUnlessHeld :
    heldState.turns = [] ∧ HostKeepsCount heldState.host ∧ heldState.heldByPending = true ∧
    State.reset.turns = [] ∧ HostKeepsCount State.reset.host ∧ State.reset.ended = true := by
  refine ⟨rfl, fun w d hm => ?_, rfl, rfl, fun w d hm => (by cases hm), rfl⟩
  cases List.mem_singleton.1 hm
  decide

theorem witness_AcceptedCommandCompletes :
    let pre : List Turn := [.host, .consumer, .withdraw]
    let s : State := { inFlight 0x5000000000000000#64 [] with
      host := [.read 0b00#2], turns := pre ++ [.engine] }
    s.xde.busy = true ∧ (∀ m ∈ pre, m ≠ .reset ∧ m ≠ .engine) ∧ HostKeepsCount s.host ∧
    [Turn.engine].head? = some .engine :=
  ⟨rfl, by decide, fun w d hm => (by cases List.mem_singleton.1 hm), rfl⟩

/-- The two ways the last clause is met: no acknowledge, and a SEALPREP in flight with the invariants. -/
theorem witness_AcceptedCommandCompletes_aead :
    Turn.consumer ∉ [Turn.host] ∧
    ((keyedXde 1#8).accept 0x2000180000000000#64 nonceW1).Inv ∧
    heldByHandOff 0x2000180000000000#64 = true :=
  ⟨by decide,
    ⟨fun h => (by cases h), fun _ => rfl, fun _ => rfl, fun _ => rfl, fun h => (by cases h),
      fun h => (by cases h), fun _ => rfl, fun _ => by decide, fun _ => rfl, fun _ _ => rfl⟩,
    by decide⟩

theorem witness_SubkeyIsFixedForTheKeyInstance :
    let s : State := { State.reset with
      xde := keyedXde 1#8, host := [.present 0x2000180000000000#64 (List.replicate 24 0#8)] }
    s.xde.mk = Vector.replicate 32 1#8 ∧
    s.xde.k1 = dbl128 (Config.aes256Enc (Vector.replicate 32 1#8) (Vector.replicate 16 0#8)) ∧
    (∀ i, (s.xde.busy = true ∧ i = decodeCommand s.xde.latchW ∨
        ∃ w d, HostMove.present w d ∈ s.host ∧ i = decodeCommand w) →
      i ≠ .clr ∧ ∀ n, i ≠ .ldkey n) ∧
    Turn.reset ∉ s.turns ∧ ∃ t : State, core.run 1 s = .next t := by
  refine ⟨rfl, rfl, ?_, by simp [State.reset], _, rfl⟩
  rintro i (⟨h, -⟩ | ⟨w, d, hm, rfl⟩)
  · cases h
  · cases List.mem_singleton.1 hm
    rw [test_decode_sealprep]
    simp

theorem witness_RekeyLeavesTheNewKeyOnly :
    { State.reset with xde := pendingXde }.xde.busy = false ∧
    ∃ l : Listing, assemble (.rekey (Vector.replicate 32 1#8 : Bytes 32).toList) = some l :=
  ⟨rfl, _, rfl⟩

end Sys2Proof.Tests
end

section
/-!
PROOFS. The big-endian value of a block (spec/00_scope.md R11): its base-256 digits, and what follows from them.
-/

namespace Sys2Proof.Machine

/-- The base-256 digits of be128(B), the least significant (`B[15]`) first (R11). -/
def digits128 (B : Block) : List Nat := (B.toList.map BitVec.toNat).reverse

@[simp] theorem length_digits128 (B : Block) : (digits128 B).length = 16 := by
  simp [digits128]

theorem getElem_digits128 (B : Block) (k : Nat) (h : k < 16) :
    (digits128 B)[k]'(by simpa using h) = B[15 - k].toNat := by
  simp [digits128]

theorem digits128_lt (B : Block) : ∀ d ∈ digits128 B, d < 256 := by
  intro d hd
  obtain ⟨x, -, rfl⟩ : ∃ x ∈ B.toList, x.toNat = d := by simpa [digits128] using hd
  exact x.isLt

/-- be128 by its digits: sixteen of them stay below 2^128, so nothing is cut off. -/
theorem toNat_be128 (B : Block) : (be128 B).toNat = Nat.ofDigits 256 (digits128 B) := by
  have hfold : B.toList.foldl (fun v x => v * 256 + x.toNat) 0 = Nat.ofDigits 256 (digits128 B) := by
    simp [digits128, Nat.ofDigits_eq_foldr, ← List.map_reverse, List.foldr_map, Nat.add_comm,
      Nat.mul_comm]
  have hlt : Nat.ofDigits 256 (digits128 B) < 256 ^ 16 := by
    simpa using Nat.ofDigits_lt_base_pow_length (by decide) (digits128_lt B)
  rw [be128, hfold, BitVec.toNat_ofNat, Nat.mod_eq_of_lt (by omega)]

/-- Shifting out the `15 - i` bytes below it leaves `B[i]` as the lowest byte (R11). -/
theorem extractLsb'_be128 (B : Block) (i : Nat) (h : i < 16) :
    (be128 B).extractLsb' (8 * (15 - i)) 8 = B[i] := by
  have hk : 15 - i < 16 := by omega
  have hdrop : (digits128 B).drop (15 - i) = B[i].toNat :: (digits128 B).drop (15 - i + 1) := by
    rw [List.drop_eq_getElem_cons (by simpa using hk), getElem_digits128 B _ hk]
    simp only [show 15 - (15 - i) = i by omega]
  apply BitVec.eq_of_toNat_eq
  calc ((be128 B).extractLsb' (8 * (15 - i)) 8).toNat
      = Nat.ofDigits 256 (digits128 B) / 256 ^ (15 - i) % 256 := by
        rw [BitVec.extractLsb'_toNat, Nat.shiftRight_eq_div_pow, Nat.pow_mul, toNat_be128]
    _ = Nat.ofDigits 256 ((digits128 B).drop (15 - i)) % 256 := by
        rw [Nat.ofDigits_div_pow_eq_ofDigits_drop _ (by decide) _ (digits128_lt B)]
    _ = B[i].toNat := by
        rw [hdrop, Nat.ofDigits_mod_eq_head!, List.head!_cons, Nat.mod_eq_of_lt B[i].isLt]

/-- Bit `j` of `B[i]` is bit `8 * (15 - i) + j` of the value (R11). -/
theorem getLsbD_be128 (B : Block) (i j : Nat) (hi : i < 16) (hj : j < 8) :
    (be128 B).getLsbD (8 * (15 - i) + j) = B[i].getLsbD j := by
  simp [← extractLsb'_be128 B i hi, hj]

/-- The sum of R11. -/
theorem toNat_be128_eq_sum (B : Block) :
    (be128 B).toNat = ∑ i : Fin 16, B[i].toNat * 2 ^ (8 * (15 - i.val)) := by
  have hterms : ((digits128 B).mapIdx fun k d => d * 256 ^ k) =
      List.ofFn fun k : Fin 16 => B[15 - k.val].toNat * 256 ^ k.val :=
    List.ext_getElem (by simp) fun k h _ => by
      rw [List.getElem_mapIdx, List.getElem_ofFn, getElem_digits128 B k (by simpa using h)]
  calc (be128 B).toNat
      = ∑ k : Fin 16, B[15 - k.val].toNat * 256 ^ k.val := by
        rw [toNat_be128, Nat.ofDigits_eq_sum_mapIdx, hterms, List.sum_ofFn]
    _ = ∑ i : Fin 16, B[15 - i.rev.val].toNat * 256 ^ i.rev.val :=
        (Equiv.sum_comp Fin.revPerm _).symm
    _ = ∑ i : Fin 16, B[i].toNat * 2 ^ (8 * (15 - i.val)) := by
        refine Finset.sum_congr rfl fun i _ => ?_
        have hback : 15 - (15 - i.val) = i.val := by omega
        simp [Fin.val_rev, hback, Nat.pow_mul]

/-- The sixteen bytes of a value are all of it: each bit of `v` lies in one of them (R11). -/
theorem bytes128_injective : Function.Injective bytes128 := by
  intro v w hvw
  apply BitVec.eq_of_getLsbD_eq
  intro k hk
  have hi : 15 - k / 8 < 16 := by omega
  have hbyte : v.extractLsb' (8 * (15 - (15 - k / 8))) 8 =
      w.extractLsb' (8 * (15 - (15 - k / 8))) 8 := by
    rw [← getElem_bytes128 v _ hi, ← getElem_bytes128 w _ hi, hvw]
  have hpos : 8 * (15 - (15 - k / 8)) + k % 8 = k := by omega
  simpa [Nat.mod_lt, hpos] using congrArg (·.getLsbD (k % 8)) hbyte

@[simp] theorem bytes128_be128 (B : Block) : bytes128 (be128 B) = B := by
  ext1 i hi
  rw [getElem_bytes128, extractLsb'_be128]

@[simp] theorem be128_bytes128 (v : BitVec 128) : be128 (bytes128 v) = v :=
  bytes128_injective (bytes128_be128 (bytes128 v))

/-- Settles O8: the value's base-256 digits are the bytes, and a value has no bit outside its sixteen bytes. -/
theorem bigEndianBlockValue : Obligations.BigEndianBlockValue :=
  ⟨fun B => ⟨toNat_be128_eq_sum B, bytes128_be128 B,
    getLsbD_be128 B 0 7 (by decide) (by decide), getLsbD_be128 B 15 0 (by decide) (by decide)⟩,
    be128_bytes128⟩

end Sys2Proof.Machine
end

section
/-!
PROOFS. What a command's body writes, said once for all commands, and which registers a completion may
therefore change (spec/10_state.md R33, R34, R42).
-/

namespace Sys2Proof.Machine

/-! ### The opcode of a decoded word -/

/-- OPC of the words that decode to `i` (R64); a read has no word. -/
def opcodeOf : Instr → BitVec 4
  | .ldkey _ => 0x1#4
  | .sealprep _ => 0x2#4
  | .openprep _ _ => 0x3#4
  | .dbl _ => 0x4#4
  | .clr => 0x5#4
  | .illegal w => opcField w
  | .rdStatus => 0#4
  | .rdParam => 0#4
  | .rdResult => 0#4
  | .rdReserved => 0#4

theorem opcodeOf_decodeCommand (w : CommandWord) : opcodeOf (decodeCommand w) = opcField w := by
  unfold decodeCommand
  split_ifs <;> simp [opcodeOf, *]

theorem opcode_of_decodeCommand {w : CommandWord} {i : Instr} (h : decodeCommand w = i) :
    w.toNat / 2 ^ 60 = (opcodeOf i).toNat := by
  rw [← h, opcodeOf_decodeCommand, opcField_toNat]

/-! ### What a body writes -/

/-- `CommandWrite x i y`: the body of `i` may take `x` to `y`, up to ERR. -/
inductive CommandWrite (x : Xde) : Instr → Xde → Prop
  | nothing (i : Instr) : CommandWrite x i x
  | loadKey (dlen : BitVec 8) (k : Bytes 32) : CommandWrite x (.ldkey dlen) (x.loadKey k (subkeyOf k))
  | dropKey (dlen : BitVec 8) : CommandWrite x (.ldkey dlen) x.dropKey
  | handOffSeal (dlen : BitVec 8) (n : Bytes 24) (keyed : x.keyed = true) :
      CommandWrite x (.sealprep dlen)
        (x.emitAead .sealMode (derive x.mk x.k1 n).1 (derive x.mk x.k1 n).2 0#40)
  | handOffOpen (dlen : BitVec 8) (ctlen bodylen : BitVec 40) (n : Bytes 24) (keyed : x.keyed = true) :
      CommandWrite x (.openprep dlen ctlen)
        (x.emitAead .openMode (derive x.mk x.k1 n).1 (derive x.mk x.k1 n).2 bodylen)
  | setResult (dlen : BitVec 8) (v : Block) : CommandWrite x (.dbl dlen) (x.setResult v)
  | dropResult (dlen : BitVec 8) : CommandWrite x (.dbl dlen) x.dropResult
  | clear : CommandWrite x .clr x.dropKey.dropAead.dropResult

/-- Every body makes one of these writes and then sets ERR. -/
theorem bodyOf_commandWrite (i : Instr) (x : Xde) :
    ∃ y e, CommandWrite x i y ∧ (bodyOf i x).xde = y.setErr e := by
  cases i with
  | ldkey dlen =>
    simp only [bodyOf, ldkeyBody]
    split_ifs
    · exact ⟨_, _, .dropKey dlen, rfl⟩
    · exact ⟨_, _, .loadKey dlen _, rfl⟩
  | sealprep dlen =>
    simp only [bodyOf, sealprepBody]
    split_ifs with hk
    · exact ⟨_, _, .nothing _, rfl⟩
    · exact ⟨_, _, .nothing _, rfl⟩
    · exact ⟨_, _, .handOffSeal dlen x.nonceOperand (by simpa using hk), rfl⟩
  | openprep dlen ctlen =>
    simp only [bodyOf, openprepBody]
    split_ifs with hk
    · exact ⟨_, _, .nothing _, rfl⟩
    · exact ⟨_, _, .nothing _, rfl⟩
    · exact ⟨_, _, .nothing _, rfl⟩
    · exact ⟨_, _, .handOffOpen dlen ctlen _ x.nonceOperand (by simpa using hk), rfl⟩
  | dbl dlen =>
    simp only [bodyOf, dblBody]
    split_ifs
    · exact ⟨_, _, .dropResult dlen, rfl⟩
    · exact ⟨_, _, .setResult dlen _, rfl⟩
  | clr => exact ⟨_, _, .clear, rfl⟩
  | illegal w => exact ⟨_, _, .nothing _, rfl⟩
  | rdStatus | rdParam | rdResult | rdReserved => exact ⟨x, x.err, .nothing _, rfl⟩

/-! ### Which registers a completion changes -/

/-- Only CLR and LDKEY write MK, K1 and KEYED. -/
theorem clr_or_ldkey_of_key_ne {i : Instr} {x : Xde}
    (h : (bodyOf i x).xde.mk ≠ x.mk ∨ (bodyOf i x).xde.k1 ≠ x.k1 ∨ (bodyOf i x).xde.keyed ≠ x.keyed) :
    i = .clr ∨ ∃ n, i = .ldkey n := by
  obtain ⟨y, e, hw, hy⟩ := bodyOf_commandWrite i x
  rw [hy] at h
  cases hw <;> simp_all

/-- Only CLR, SEALPREP and OPENPREP write the AEAD registers. -/
theorem clr_or_prep_of_aead_ne {i : Instr} {x : Xde} (h : (bodyOf i x).xde.aead ≠ x.aead) :
    i = .clr ∨ (∃ n, i = .sealprep n) ∨ ∃ n c, i = .openprep n c := by
  obtain ⟨y, e, hw, hy⟩ := bodyOf_commandWrite i x
  rw [hy] at h
  cases hw <;> simp_all

/-- Only CLR and DBL write RESULT and RES_VALID. -/
theorem clr_or_dbl_of_result_ne {i : Instr} {x : Xde}
    (h : (bodyOf i x).xde.result ≠ x.result ∨ (bodyOf i x).xde.resValid ≠ x.resValid) :
    i = .clr ∨ ∃ n, i = .dbl n := by
  obtain ⟨y, e, hw, hy⟩ := bodyOf_commandWrite i x
  rw [hy] at h
  cases hw <;> simp_all

/-- Settles O25: the completion is that of the decoded command's body, and the decoded command names the
opcode. -/
theorem completionWritesOnlyItsRegisters : Obligations.CompletionWritesOnlyItsRegisters := by
  intro s t w h
  obtain rfl := (complete_next_iff _ s t).1 ((exec_command w s).symm.trans h)
  refine ⟨fun hk => ?_, fun ha => ?_, fun hr => ?_, rfl, rfl, rfl, rfl, rfl⟩
  · obtain hc | ⟨n, hl⟩ := clr_or_ldkey_of_key_ne hk
    · exact .inr (opcode_of_decodeCommand hc)
    · exact .inl (opcode_of_decodeCommand hl)
  · obtain hc | ⟨n, hs⟩ | ⟨n, c, ho⟩ := clr_or_prep_of_aead_ne ha
    · exact .inr (.inr (opcode_of_decodeCommand hc))
    · exact .inl (opcode_of_decodeCommand hs)
    · exact .inr (.inl (opcode_of_decodeCommand ho))
  · obtain hc | ⟨n, hd⟩ := clr_or_dbl_of_result_ne hr
    · exact .inr (opcode_of_decodeCommand hc)
    · exact .inl (opcode_of_decodeCommand hd)

/-- Settles O40: a step that leaves XDE alone and an acceptance touch none of these registers, an acknowledge
touches only the AEAD registers, and a completion is its body's writes. -/
theorem registersAreWrittenOnlyBy : Obligations.RegistersAreWrittenOnlyBy := by
  intro s t h
  obtain ⟨-, -, hx | ⟨hn, hb, hx⟩ | ⟨-, w, d, -, -, -, -, hx⟩ | ⟨hn, -, hx⟩ | ⟨hn, -⟩⟩ := step_next_xde h
  · simp [hx]
  · rw [hx]
    exact ⟨fun hk => .inr ⟨hn, hb, clr_or_ldkey_of_key_ne hk⟩,
      fun ha => .inr (.inr ⟨hn, hb, clr_or_prep_of_aead_ne ha⟩),
      fun hr => .inr ⟨hn, hb, clr_or_dbl_of_result_ne hr⟩⟩
  · simp [hx]
  · simp [hx, hn]
  · exact ⟨fun _ => .inl hn, fun _ => .inl hn, fun _ => .inl hn⟩

end Sys2Proof.Machine
end

section
/-!
PROOFS. The invariants of spec/10_state.md R44: they hold at reset, and each write of XDE's registers keeps
them. A write that ends a command is taken after `finish`, where the clauses on a command in flight say nothing.
-/

namespace Sys2Proof.Machine

theorem Xde.reset_inv : Xde.reset.Inv where
  unkeyedZero _ := ⟨rfl, rfl⟩
  keyedSubkey h := by cases h
  noHandOffZero _ := rfl
  noResultZero _ := rfl
  idleLatchClear _ := ⟨rfl, rfl⟩
  handOffDerived h := by cases h
  sealNoBody _ := rfl
  latchCount h := by cases h
  busyNoErr h := by cases h
  heldNotInFlight h := by cases h

/-- Settles O38: every register is at its reset value. -/
theorem invariantAtReset : Obligations.InvariantAtReset := Xde.reset_inv

section
variable {x : Xde}

theorem Xde.Inv.finish (h : x.Inv) : x.finish.Inv :=
  { h with
    idleLatchClear := fun _ => ⟨rfl, rfl⟩
    latchCount := fun hb => by cases hb
    busyNoErr := fun hb => by cases hb
    heldNotInFlight := fun hb => by cases hb }

/-- Any code may be set while XDE is idle. -/
theorem Xde.Inv.setErr (h : x.Inv) (hb : x.busy = false) (e : ErrCode) : (x.setErr e).Inv :=
  { h with busyNoErr := fun hb' => by simp [hb] at hb' }

theorem Xde.Inv.loadKey (h : x.Inv) (k : Bytes 32) : (x.loadKey k (subkeyOf k)).Inv :=
  { h with
    unkeyedZero := fun hk => by cases hk
    keyedSubkey := fun _ => rfl }

theorem Xde.Inv.dropKey (h : x.Inv) : x.dropKey.Inv :=
  { h with
    unkeyedZero := fun _ => ⟨rfl, rfl⟩
    keyedSubkey := fun hk => by cases hk }

theorem Xde.Inv.setResult (h : x.Inv) (v : Block) : (x.setResult v).Inv :=
  { h with noResultZero := fun hv => by cases hv }

theorem Xde.Inv.dropResult (h : x.Inv) : x.dropResult.Inv :=
  { h with noResultZero := fun _ => rfl }

theorem Xde.Inv.dropAead (h : x.Inv) : x.dropAead.Inv :=
  { h with
    noHandOffZero := fun _ => rfl
    handOffDerived := fun hv => by cases hv
    sealNoBody := fun _ => rfl
    heldNotInFlight := fun _ _ => rfl }

/-- A keyed XDE's K1 is the subkey of its MK, so what it derives is a hand-off in the sense of R44 (f). -/
theorem Xde.Inv.emitAead (h : x.Inv) (hb : x.busy = false) (hk : x.keyed = true) (m : Mode) (n : Bytes 24)
    (bodylen : BitVec 40) (hseal : m = .sealMode → bodylen = 0#40) :
    (x.emitAead m (derive x.mk x.k1 n).1 (derive x.mk x.k1 n).2 bodylen).Inv :=
  { h with
    noHandOffZero := fun hv => by cases hv
    handOffDerived := fun _ => ⟨x.mk, n, by simp [← h.keyedSubkey hk]⟩
    sealNoBody := hseal
    heldNotInFlight := fun hb' => by simp [hb] at hb' }

/-- What CMD_READY guards is what the clauses on a command in flight say (R37, R117). -/
theorem Xde.Inv.accept {w : CommandWord} {d : List Byte} (h : x.Inv) (hd : dataCountOk w d = true)
    (hr : x.cmdReady w = true) : (x.accept w d).Inv :=
  { h with
    idleLatchClear := fun hb => by cases hb
    latchCount := fun _ => (dataCountOk_iff w d).1 hd
    busyNoErr := fun _ => rfl
    heldNotInFlight := fun _ (hh : heldByHandOff w = true) => by
      simpa [hh] using ((cmdReady_iff x w).1 hr).2 }

/-- A completion keeps the invariants: its write and the code it sets commute with `finish`. -/
theorem Xde.Inv.complete (h : x.Inv) (i : Instr) : (bodyOf i x).xde.finish.Inv := by
  obtain ⟨y, e, hw, hy⟩ := bodyOf_commandWrite i x
  rw [hy]
  have hf : x.finish.Inv := h.finish
  cases hw with
  | nothing => exact hf.setErr rfl e
  | loadKey _ k => exact (hf.loadKey k).setErr rfl e
  | dropKey => exact hf.dropKey.setErr rfl e
  | handOffSeal _ n hk => exact (hf.emitAead rfl hk .sealMode n 0#40 fun _ => rfl).setErr rfl e
  | handOffOpen _ _ bodylen n hk => exact (hf.emitAead rfl hk .openMode n bodylen nofun).setErr rfl e
  | setResult _ v => exact (hf.setResult v).setErr rfl e
  | dropResult => exact hf.dropResult.setErr rfl e
  | clear => exact hf.dropKey.dropAead.dropResult.setErr rfl e

end

/-- Settles O39: each of the five ways a step writes XDE keeps the invariants. -/
theorem everyStepKeepsTheInvariant : Obligations.EveryStepKeepsTheInvariant := by
  intro s t hi h
  obtain ⟨-, -, hx | ⟨-, -, hx⟩ | ⟨-, w, d, rest, -, hd, hr, hx⟩ | ⟨-, -, hx⟩ | ⟨-, hx⟩⟩ :=
    step_next_xde h <;> rw [hx]
  · exact hi
  · exact hi.complete _
  · exact hi.accept hd hr
  · exact hi.dropAead
  · exact Xde.reset_inv

end Sys2Proof.Machine
end

section
/-!
PROOFS. The registers and signals computed from the state: STATUS (spec/10_state.md R27), PARAM (R32) and
CMD_READY (R37).
-/

namespace Sys2Proof.Machine

/-- Code 7 is reserved (R137). -/
theorem ErrCode.bits_ne_seven (e : ErrCode) : e.bits ≠ 7#3 := by
  cases e <;> decide

/-- The four flags are STATUS's low bits, BUSY the lowest (R27). -/
theorem status_eq_concat (x : Xde) :
    x.status = ((((0#25 ++ x.err.bits).concat x.resValid).concat x.aead.valid).concat x.keyed).concat x.busy :=
  rfl

/-- Above the flags STATUS is ERR and zeros. -/
theorem getLsbD_status_add_four (x : Xde) (k : Nat) :
    x.status.getLsbD (k + 4) = (0#25 ++ x.err.bits).getLsbD k := by
  simp only [status_eq_concat, BitVec.getLsbD_concat_succ]

theorem extractLsb'_status_err (x : Xde) : x.status.extractLsb' 4 3 = x.err.bits := by
  ext k hk
  rw [BitVec.getElem_extractLsb', Nat.add_comm, getLsbD_status_add_four, BitVec.getLsbD_append]
  simp [hk]

theorem extractLsb'_status_reserved (x : Xde) : x.status.extractLsb' 7 25 = 0#25 := by
  ext k hk
  rw [BitVec.getElem_extractLsb', show 7 + k = k + 3 + 4 by omega, getLsbD_status_add_four,
    BitVec.getLsbD_append]
  simp

theorem getLsbD_status_flags (x : Xde) :
    x.status.getLsbD 0 = x.busy ∧ x.status.getLsbD 1 = x.keyed ∧
    x.status.getLsbD 2 = x.aead.valid ∧ x.status.getLsbD 3 = x.resValid := by
  simp only [status_eq_concat, BitVec.getLsbD_concat_succ, BitVec.getLsbD_concat_zero, and_self]

/-- Settles O29: the flags are bits 0 to 3 of STATUS, and above them stand ERR and zeros. -/
theorem statusFields : Obligations.StatusFields := by
  refine ⟨fun x => ?_, rfl, rfl, rfl, rfl, rfl, rfl, rfl⟩
  obtain ⟨hbusy, hkeyed, hvalid, hres⟩ := getLsbD_status_flags x
  refine ⟨hbusy, hkeyed, hvalid, hres, extractLsb'_status_err x, extractLsb'_status_reserved x, ?_⟩
  rw [extractLsb'_status_err]
  exact x.err.bits_ne_seven

theorem paramReg_eq : paramReg = 0x01102018#32 := by decide

/-- Settles O30: the fields are read off the value, and RD PARAM answers it. -/
theorem paramFields : Obligations.ParamFields := by
  refine ⟨paramReg_eq, ?_⟩
  rw [paramReg_eq]
  refine ⟨rfl, rfl, rfl, rfl, fun s => ?_⟩
  show respond (zext128 paramReg) s = _
  rw [paramReg_eq]
  rfl

/-- Settles O31: the opcodes held back are 2 and 3, read as the word's top four bits. -/
theorem commandReadyFormula : Obligations.CommandReadyFormula := by
  intro x w
  rw [cmdReady_iff, heldByHandOff_iff, opcField_eq_iff, opcField_eq_iff]
  rfl

end Sys2Proof.Machine
end

section
/-!
PROOFS. A run is the fold of its events (spec/20_memory.md R59): each step writes XDE as its event says
(spec/42_control.md R116, R117, R121), and a command in flight only occupies the latch, BUSY and ERR.
-/

namespace Sys2Proof.Machine

/-! ### One step and its event -/

/-- `EventStep x es y`: a step with the events `es` may take XDE from `x` to `y`. -/
inductive EventStep (x : Xde) : List Event → Xde → Prop
  | nothing : EventStep x [] x
  | complete (busy : x.busy = true) :
      EventStep x [.completed x.latchW x.latchD] (bodyOf (decodeCommand x.latchW) x).xde.finish
  | accept (w : CommandWord) (d : List Byte) (idle : x.busy = false) :
      EventStep x [.accepted w d] (x.accept w d)
  | acknowledge : EventStep x [.acknowledged] x.dropAead
  | reset : EventStep x [.wasReset] Xde.reset

/-- `nextEvent` names what the step does to XDE, in every turn. -/
theorem step_eventStep {s t : State} (h : step s = .next t) : EventStep s.xde s.nextEvent t.xde := by
  obtain ⟨hn, h⟩ | ⟨hn, h⟩ | ⟨hn, h⟩ | ⟨hn, h⟩ | ⟨hn, h⟩ := step_next_cases h <;>
    simp only [State.nextEvent, hn]
  · obtain ⟨hb, rfl⟩ | ⟨hb, rfl⟩ := (engineTurn_next_iff _ _).1 h <;> simp only at hb
    · simpa [hb] using EventStep.complete hb
    · simpa [hb] using EventStep.nothing
  · obtain ⟨hh, rfl⟩ | ⟨w, d, rest, hh, -, ⟨hr, rfl⟩ | ⟨hr, rfl⟩⟩ | ⟨_, _, hh, rfl⟩ | ⟨_, hh, rfl⟩ :=
      (hostTurn_next_iff _ _).1 h <;> simp only at hh <;> simp only [hh]
    · exact .nothing
    · simpa [hr] using EventStep.accept w d ((cmdReady_iff _ _).1 hr).1
    · simpa [hr] using EventStep.nothing
    · exact .nothing
    · exact .nothing
  · obtain ⟨_, _, _, -, rfl⟩ | ⟨-, rfl⟩ := (withdrawStep_next_iff _ _).1 h <;> exact .nothing
  · obtain ⟨hv, rfl⟩ | ⟨hv, rfl⟩ := (ackStep_next_iff _ _).1 h <;> simp only at hv
    · simpa [hv] using EventStep.acknowledge
    · simpa [hv] using EventStep.nothing
  · obtain rfl := (resetStep_next_iff _ _).1 h
    exact .reset

/-! ### The registers: XDE against its sequential reading -/

/-- `x` is the sequential XDE `y`, with the command in flight, if any, accepted on top and nothing else done. -/
def Xde.Follows (x y : Xde) : Prop := x = if x.busy then y.accept x.latchW x.latchD else y

theorem Xde.follows_self {x : Xde} (hb : x.busy = false) : x.Follows x := by
  simp [Xde.Follows, hb]

theorem Xde.follows_accept (y : Xde) (w : CommandWord) (d : List Byte) : (y.accept w d).Follows y := by
  simp [Xde.Follows]

theorem Xde.Follows.eq_of_idle {x y : Xde} (h : x.Follows y) (hb : x.busy = false) : x = y := by
  simpa [Xde.Follows, hb] using h

theorem Xde.Follows.eq_of_busy {x y : Xde} (h : x.Follows y) (hb : x.busy = true) :
    x = y.accept x.latchW x.latchD := by
  simpa [Xde.Follows, hb] using h

/-- An acknowledge touches no register that an acceptance writes, so it may pass a command in flight (R121). -/
theorem Xde.Follows.dropAead {x y : Xde} (h : x.Follows y) : x.dropAead.Follows y.dropAead := by
  cases hb : x.busy with
  | false =>
    obtain rfl := h.eq_of_idle hb
    exact Xde.follows_self hb
  | true =>
    rw [h.eq_of_busy hb]
    exact Xde.follows_accept y.dropAead _ _

/-- Completing the command in flight is taking the whole command in the sequential XDE (R116). -/
theorem Xde.Follows.complete {x y : Xde} (h : x.Follows y) (hb : x.busy = true) :
    (bodyOf (decodeCommand x.latchW) x).xde.finish = completeCommand x.latchW x.latchD y := by
  rw [completeCommand_eq, ← h.eq_of_busy hb]

/-- A step's event keeps XDE at its sequential reading. -/
theorem EventStep.follows {x x' y : Xde} {es : List Event} (h : EventStep x es x') (hf : x.Follows y) :
    x'.Follows (es.foldl applyEvent y) := by
  cases h with
  | nothing => exact hf
  | complete hb =>
    rw [hf.complete hb]
    exact Xde.follows_self (by rw [completeCommand_eq, Xde.finish_busy])
  | accept w d hb =>
    rw [hf.eq_of_idle hb]
    exact Xde.follows_accept y w d
  | acknowledge => exact hf.dropAead
  | reset => exact Xde.follows_self rfl

theorem run_follows_events {k : Nat} {s t : State} {y : Xde} (hf : s.xde.Follows y)
    (h : core.run k s = .next t) : t.xde.Follows ((s.events k).foldl applyEvent y) := by
  induction k generalizing s y with
  | zero =>
    cases h
    exact hf
  | succ k ih =>
    obtain ⟨u, hu, hr⟩ := run_succ_next h
    rw [events_succ_of_step k hu, List.foldl_append]
    exact ih ((step_eventStep hu).follows hf) hr

/-! ### The order: commands complete as they were accepted -/

/-- The command in flight, if there is one. -/
def Xde.inFlight (x : Xde) : List (CommandWord × List Byte) :=
  if x.busy then [(x.latchW, x.latchD)] else []

theorem Xde.inFlight_of_idle {x : Xde} (hb : x.busy = false) : x.inFlight = [] := by
  simp [Xde.inFlight, hb]

theorem Xde.inFlight_of_busy {x : Xde} (hb : x.busy = true) : x.inFlight = [(x.latchW, x.latchD)] := by
  simp [Xde.inFlight, hb]

@[simp] theorem Xde.finish_inFlight (x : Xde) : x.finish.inFlight = [] := rfl
@[simp] theorem Xde.accept_inFlight (x : Xde) (w : CommandWord) (d : List Byte) :
    (x.accept w d).inFlight = [(w, d)] := rfl
@[simp] theorem Xde.dropAead_inFlight (x : Xde) : x.dropAead.inFlight = x.inFlight := rfl

/-- What was in flight and what a step accepts is what it completes and what is in flight after it. -/
theorem EventStep.acceptedCommands_eq {x y : Xde} {es : List Event} (h : EventStep x es y)
    (hr : Event.wasReset ∉ es) :
    x.inFlight ++ es.filterMap Event.acceptedCommand =
      es.filterMap Event.completedCommand ++ y.inFlight := by
  cases h with
  | nothing => simp
  | complete hb => simp [Xde.inFlight_of_busy hb, List.filterMap_cons]
  | accept w d hb => simp [Xde.inFlight_of_idle hb, List.filterMap_cons]
  | acknowledge => simp [List.filterMap_cons]
  | reset => exact absurd (List.mem_singleton_self _) hr

theorem run_acceptedCommands_eq {k : Nat} {s t : State} (h : core.run k s = .next t)
    (hr : Event.wasReset ∉ s.events k) :
    s.xde.inFlight ++ (s.events k).filterMap Event.acceptedCommand =
      (s.events k).filterMap Event.completedCommand ++ t.xde.inFlight := by
  induction k generalizing s with
  | zero =>
    cases h
    simp
  | succ k ih =>
    obtain ⟨u, hu, hrun⟩ := run_succ_next h
    rw [events_succ_of_step k hu, List.mem_append, not_or] at hr
    obtain ⟨hnow, hlater⟩ := hr
    rw [events_succ_of_step k hu, List.filterMap_append, List.filterMap_append, ← List.append_assoc,
      (step_eventStep hu).acceptedCommands_eq hnow, List.append_assoc, ih hrun hlater, List.append_assoc]

/-- Settles O43: an idle XDE is its own sequential reading and has nothing in flight, and every step keeps
both accounts. -/
theorem runIsTheFoldOfCompletions : Obligations.RunIsTheFoldOfCompletions := by
  intro s t k hb h
  refine ⟨run_follows_events (Xde.follows_self hb) h, fun hr => ?_⟩
  have horder := run_acceptedCommands_eq h hr
  rwa [Xde.inFlight_of_idle hb, List.nil_append] at horder

end Sys2Proof.Machine
end

section
/-!
PROOFS. The decoder (spec/30_encoding.md R69) and the encoder (R68): each undoes the other, and what the decoder
answers in terms of the word's fields and of the rows of R70.
-/

namespace Sys2Proof

/-! ### The number an assembled word is -/

/-- The four fields do not overlap: a word is the sum of its fields at their places (R63, R68). -/
theorem toNat_assembleWord (o : BitVec 4) (r : BitVec 12) (d : BitVec 8) (n : BitVec 40) :
    (assembleWord o r d n).toNat = o.toNat * 2 ^ 60 + r.toNat * 2 ^ 48 + d.toNat * 2 ^ 40 + n.toNat := by
  have ho := opcField_toNat (assembleWord o r d n)
  have hr := rsvField_toNat (assembleWord o r d n)
  have hd := dlenField_toNat (assembleWord o r d n)
  have hn := ctlenField_toNat (assembleWord o r d n)
  simp only [opcField_assembleWord, rsvField_assembleWord, dlenField_assembleWord,
    ctlenField_assembleWord] at ho hr hd hn
  omega

/-- Settles O5: the fields, read back from the assembled word, are its quotients and remainders. -/
theorem wordIsAssembledFromFields : Obligations.WordIsAssembledFromFields := toNat_assembleWord

/-! ### Encoding what was decoded -/

/-- Which word an assembly is, field by field. -/
theorem assembleWord_eq_iff (w : CommandWord) (o : BitVec 4) (r : BitVec 12) (d : BitVec 8) (n : BitVec 40) :
    assembleWord o r d n = w ↔ opcField w = o ∧ rsvField w = r ∧ dlenField w = d ∧ ctlenField w = n := by
  rw [eq_comm, ← assembleWord_fields w, assembleWord_inj, assembleWord_fields]

/-- The fields a command fixes are the ones its branch of R69 tests, and it carries the free ones. -/
theorem encode_decodeCommand (w : CommandWord) : encode (decodeCommand w) = .command w := by
  unfold decodeCommand
  split_ifs <;> simp_all [encode, assembleWord_eq_iff]

theorem encode_decodeRead (rsel : BitVec 2) : encode (decodeRead rsel) = .read rsel := by
  revert rsel
  decide

theorem encode_decode (e : Encoding) : encode (decode e) = e := by
  cases e with
  | command w => exact encode_decodeCommand w
  | read rsel => exact encode_decodeRead rsel

/-! ### The illegal words -/

/-- The decoder answers ILLEGAL for exactly the words that no row of R70 selects. -/
theorem decodeCommand_eq_illegal_iff (w : CommandWord) :
    decodeCommand w = .illegal w ↔ legalWord w = false := by
  rw [← Bool.not_eq_true, legalWord_iff]
  unfold decodeCommand
  split_ifs <;> simp_all [and_comm]

/-- An illegal answer is about the word itself, so the answer is always an instruction. -/
theorem wf_decodeCommand (w : CommandWord) : (decodeCommand w).wf = true := by
  cases h : decodeCommand w with
  | illegal v =>
    obtain rfl : v = w := by simpa [h, encode] using encode_decodeCommand w
    simp [Instr.wf, (decodeCommand_eq_illegal_iff v).1 h]
  | _ => rfl

/-- Settles O2: on the command port by `wf_decodeCommand`; a read selector never decodes to ILLEGAL. -/
theorem decodedIsWellFormed : Obligations.DecodedIsWellFormed := by
  intro e
  cases e with
  | command w => exact wf_decodeCommand w
  | read rsel =>
    simp only [decode, decodeRead]
    split_ifs <;> rfl

/-! ### Decoding what was encoded -/

@[simp] theorem decodeCommand_ldkeyWord (d : BitVec 8) :
    decodeCommand (assembleWord 0x1#4 0#12 d 0#40) = .ldkey d := by simp [decodeCommand]

@[simp] theorem decodeCommand_sealprepWord (d : BitVec 8) :
    decodeCommand (assembleWord 0x2#4 0#12 d 0#40) = .sealprep d := by simp [decodeCommand]

@[simp] theorem decodeCommand_openprepWord (d : BitVec 8) (n : BitVec 40) :
    decodeCommand (assembleWord 0x3#4 0#12 d n) = .openprep d n := by simp [decodeCommand]

@[simp] theorem decodeCommand_dblWord (d : BitVec 8) :
    decodeCommand (assembleWord 0x4#4 0#12 d 0#40) = .dbl d := by simp [decodeCommand]

@[simp] theorem decodeCommand_clrWord :
    decodeCommand (assembleWord 0x5#4 0#12 0#8 0#40) = .clr := by simp [decodeCommand]

theorem decode_encode {i : Instr} (h : i.wf = true) : decode (encode i) = i := by
  cases i with
  | ldkey d => exact decodeCommand_ldkeyWord d
  | sealprep d => exact decodeCommand_sealprepWord d
  | openprep d n => exact decodeCommand_openprepWord d n
  | dbl d => exact decodeCommand_dblWord d
  | clr => exact decodeCommand_clrWord
  | rdStatus | rdParam | rdResult | rdReserved => rfl
  | illegal w => exact (decodeCommand_eq_illegal_iff w).2 (by simpa [Instr.wf] using h)

/-- Settles O1: the two round trips. -/
theorem decodeEncodeRoundTrip : Obligations.DecodeEncodeRoundTrip :=
  ⟨fun _ => decode_encode, encode_decode⟩

/-- The decoder's answer is `i` exactly for the one encoding of `i`. -/
theorem decodeCommand_eq_iff {w : CommandWord} {i : Instr} (h : i.wf = true) :
    decodeCommand w = i ↔ encode i = .command w :=
  ⟨fun hw => hw ▸ encode_decodeCommand w, fun hw => (congrArg decode hw).symm.trans (decode_encode h)⟩

/-! ### Rows of R70 -/

theorem encodesInRow (i : Instr) : Laws.EncodesInRow.Statement i := by
  cases i with
  | ldkey d => exact Laws.EncodesInRow.ldkey d
  | sealprep d => exact Laws.EncodesInRow.sealprep d
  | openprep d n => exact Laws.EncodesInRow.openprep d n
  | dbl d => exact Laws.EncodesInRow.dbl d
  | clr => exact Laws.EncodesInRow.clr
  | rdStatus => exact Laws.EncodesInRow.rdStatus
  | rdParam => exact Laws.EncodesInRow.rdParam
  | rdResult => exact Laws.EncodesInRow.rdResult
  | rdReserved => exact Laws.EncodesInRow.rdReserved
  | illegal w => exact Laws.EncodesInRow.illegal w

/-- The rows that select a word are the row of the instruction it decodes to, or none. -/
theorem rowsOf_eq_rowName (w : CommandWord) :
    Laws.rowsOf w = (Laws.rowName (decodeCommand w)).toList :=
  encodesInRow _ (wf_decodeCommand w) w (encode_decodeCommand w)

theorem length_selectingRows_le_one (w : CommandWord) :
    (commandRows.filter (·.selects w)).length ≤ 1 := by
  have h : (Laws.rowsOf w).length ≤ 1 := by
    rw [rowsOf_eq_rowName]
    cases Laws.rowName (decodeCommand w) <;> simp
  simpa [Laws.rowsOf] using h

/-- A row with DLEN free tests the three fields that make a word the encoding of the row's command. -/
theorem mask_dlenRow_iff {w m : CommandWord} {i : Instr} (o : BitVec 4) (hm : m = assembleWord o 0#12 0#8 0#40)
    (hwf : i.wf = true) (he : encode i = .command (assembleWord o 0#12 (dlenField w) 0#40)) :
    w &&& 0xFFFF00FFFFFFFFFF#64 = m ↔ decodeCommand w = i := by
  rw [decodeCommand_eq_iff hwf, he, Encoding.command.injEq, assembleWord_eq_iff]
  simpa only [Row.selects, beq_iff_eq, true_and] using selects_dlenRow "" o m w hm

theorem mask_openprepRow_iff (w : CommandWord) :
    w &&& 0xFFFF000000000000#64 = 0x3000000000000000#64 ↔
      decodeCommand w = .openprep (dlenField w) (ctlenField w) := by
  rw [decodeCommand_eq_iff rfl, encode, Encoding.command.injEq, assembleWord_eq_iff]
  simpa only [Row.selects, beq_iff_eq, and_true] using selects_openprepRow "" 0x3#4 0x3000000000000000#64 w (by decide)

theorem mask_clrRow_iff (w : CommandWord) :
    w &&& 0xFFFFFFFFFFFFFFFF#64 = 0x5000000000000000#64 ↔ decodeCommand w = .clr := by
  rw [decodeCommand_eq_iff rfl, encode, Encoding.command.injEq, assembleWord_eq_iff]
  simpa only [Row.selects, beq_iff_eq] using selects_clrRow "" 0x5#4 0x5000000000000000#64 w (by decide)

/-- Settles O3: a row tests the fields its command fixes, and with the word's own free fields those make the word
the command's encoding. -/
theorem matchAndMaskSelect : Obligations.MatchAndMaskSelect := by
  intro w
  refine ⟨mask_dlenRow_iff 0x1#4 (by decide) rfl rfl, mask_dlenRow_iff 0x2#4 (by decide) rfl rfl,
    mask_openprepRow_iff w, mask_dlenRow_iff 0x4#4 (by decide) rfl rfl, mask_clrRow_iff w, ?_,
    length_selectingRows_le_one w⟩
  rw [decodeCommand_eq_illegal_iff]
  simp [legalWord]

/-! ### R71's list -/

/-- Settles O4: the complement of R70's rows, with each field read by division. -/
theorem illegalWordsAreTheListedOnes : Obligations.IllegalWordsAreTheListedOnes := by
  intro w
  rw [decodeCommand_eq_illegal_iff, ← Bool.not_eq_true, legalWord_iff]
  simp only [← BitVec.toNat_inj, opcField_toNat, rsvField_toNat, dlenField_toNat, ctlenField_toNat,
    BitVec.toNat_ofNat]
  omega

/-- Settles O6: R71's list gives the row of opcodes from 6 on; each written word is one closed evaluation. -/
theorem writtenOutWordsDecode : Obligations.WrittenOutWordsDecode := by
  have hrow : ∀ opc : BitVec 4, 6 ≤ opc.toNat →
      decodeCommand (assembleWord opc 0#12 0#8 0#40) = .illegal (assembleWord opc 0#12 0#8 0#40) := by
    intro opc h
    refine (illegalWordsAreTheListedOnes _).2 (.inr (.inl ?_))
    rwa [← opcField_toNat, opcField_assembleWord]
  refine ⟨?_, ?_, ?_, ?_, ?_, ?_, ?_, ?_, ?_, ?_, ?_, ?_, hrow, ?_, ?_, rfl, rfl, rfl, rfl⟩ <;> decide

end Sys2Proof
end

section
/-!
PROOFS. The host's side: what a line of the assembler becomes (spec/30_encoding.md R75, R76), a command followed by
WAIT run to its completion, and REKEY.
-/

namespace Sys2Proof.Machine

/-! ### WAIT -/

/-- WAIT is a read of STATUS, and the host stays at it while BUSY is 1 (R76). -/
theorem hostTurn_wait {s : State} {rest : List HostMove} (h : s.host = .wait :: rest) :
    hostTurn s = exec .rdStatus { s with host := if s.xde.busy then .wait :: rest else rest } := by
  simp only [hostTurn, h]
  rfl

/-- Settles O50: the host's turn at a WAIT, with BUSY 1 and with BUSY 0. -/
theorem waitPollsUntilIdle : Obligations.WaitPollsUntilIdle := by
  intro s more hn hh
  have hstep : step s = hostTurn { s with turns := s.turns.tail } := step_of_turnNow hn
  have hwait := hstep.trans (hostTurn_wait hh)
  refine ⟨fun hb => ?_, fun hb => ?_⟩
  · simpa [hb, hh] using hwait
  · simpa [hb] using hwait

/-! ### The assembler -/

/-- R75 where both fields hold their lengths: one presentation and one turn of the host. -/
theorem assembleCommand_of_lt (opc : BitVec 4) {data : List Byte} {ctlen : Nat}
    (hd : data.length < 2 ^ 8) (hc : ctlen < 2 ^ 40) :
    assembleCommand opc data ctlen =
      some ⟨[.present (assembleWord opc 0#12 (BitVec.ofNat 8 data.length) (BitVec.ofNat 40 ctlen)) data],
        [.host]⟩ :=
  if_pos ⟨hd, hc⟩

/-- A DLEN computed from the data keeps the host's duty on the data count (R75, R160). -/
theorem dataCountOk_assembleWord (opc : BitVec 4) (ctlen : BitVec 40) {data : List Byte}
    (hd : data.length < 2 ^ 8) :
    dataCountOk (assembleWord opc 0#12 (BitVec.ofNat 8 data.length) ctlen) data = true := by
  rw [dataCountOk_iff, dlenField_assembleWord, BitVec.toNat_ofNat, Nat.mod_eq_of_lt hd]

/-- Settles O7: for each mnemonic the assembled command, the decoding of its word, and the data count. -/
theorem assemblerWritesTheCommand : Obligations.AssemblerWritesTheCommand := by
  intro bytes ctlen hd hc
  exact ⟨
    ⟨_, assembleCommand_of_lt _ hd (by decide), decodeCommand_ldkeyWord _, dataCountOk_assembleWord _ _ hd⟩,
    ⟨_, assembleCommand_of_lt _ hd (by decide), decodeCommand_sealprepWord _, dataCountOk_assembleWord _ _ hd⟩,
    ⟨_, assembleCommand_of_lt _ hd hc, decodeCommand_openprepWord _ _, dataCountOk_assembleWord _ _ hd⟩,
    ⟨_, assembleCommand_of_lt _ hd (by decide), decodeCommand_dblWord _, dataCountOk_assembleWord _ _ hd⟩,
    ⟨_, assembleCommand_of_lt _ (by decide) (by decide), decodeCommand_clrWord,
      dataCountOk_assembleWord _ _ (by decide)⟩⟩

/-- REKEY written out (R76): CLR ; WAIT ; LDKEY ; WAIT, with the turns of log entry 10. -/
theorem assemble_rekey {key : List Byte} (hk : key.length < 2 ^ 8) :
    assemble (.rekey key) = some
      ⟨[.present (assembleWord 0x5#4 0#12 0#8 0#40) [], .wait,
          .present (assembleWord 0x1#4 0#12 (BitVec.ofNat 8 key.length) 0#40) key, .wait],
        [.host, .engine, .host, .host, .engine, .host]⟩ := by
  simp only [assemble, assembleCommand_of_lt _ hk (show 0 < 2 ^ 40 by decide)]
  rfl

/-! ### A command and WAIT -/

theorem step_accept {x : Xde} {w : CommandWord} {d : List Byte} (rest : List HostMove) (ms : List Turn)
    (o : Output) (hd : dataCountOk w d = true) (hr : x.cmdReady w = true) :
    step ⟨x, .present w d :: rest, .host :: ms, o⟩ = .next ⟨x.accept w d, rest, ms, .cmdReady true⟩ := by
  rw [step_of_turnNow (turnNow_cons ..), runTurn, hostTurn_next_iff]
  exact .inr (.inl ⟨w, d, rest, rfl, hd, .inl ⟨hr, rfl⟩⟩)

theorem step_engine {x : Xde} (h : List HostMove) (ms : List Turn) (o : Output) (hb : x.busy = true) :
    step ⟨x, h, .engine :: ms, o⟩ =
      .next ⟨(bodyOf (decodeCommand x.latchW) x).xde.finish, h, ms,
        .aes (bodyOf (decodeCommand x.latchW) x).aes⟩ := by
  rw [step_of_turnNow (turnNow_cons ..), runTurn, engineTurn_next_iff]
  exact .inl ⟨hb, rfl⟩

theorem step_wait_of_idle {x : Xde} (rest : List HostMove) (ms : List Turn) (o : Output)
    (hb : x.busy = false) :
    step ⟨x, .wait :: rest, .host :: ms, o⟩ = .next ⟨x, rest, ms, .rdata (readValue 0b00#2 x)⟩ := by
  rw [step_of_turnNow (turnNow_cons ..), runTurn, hostTurn_next_iff]
  exact .inr (.inr (.inr ⟨rest, rfl, by simp [hb]⟩))

/-- A command that XDE is ready for and a WAIT behind it, with the turns the assembler gives them: the command is
taken as a whole and the host goes on (R76, R116, R117). -/
theorem run_command_wait {x : Xde} {w : CommandWord} {d : List Byte} (rest : List HostMove)
    (ms : List Turn) (o : Output) (hd : dataCountOk w d = true) (hr : x.cmdReady w = true) :
    ∃ o', core.run 3 ⟨x, .present w d :: .wait :: rest, .host :: .engine :: .host :: ms, o⟩ =
      .next ⟨completeCommand w d x, rest, ms, o'⟩ := by
  rw [run_succ_of_step _ (step_accept _ _ _ hd hr), run_succ_of_step _ (step_engine _ _ _ rfl),
    run_succ_of_step _ (step_wait_of_idle _ _ _ rfl), completeCommand_eq]
  exact ⟨_, rfl⟩

/-! ### REKEY -/

/-- CLR taken as a whole leaves every register at its reset value (R113, R114). -/
theorem completeCommand_of_clr {w : CommandWord} (hw : decodeCommand w = .clr) (d : List Byte) (x : Xde) :
    completeCommand w d x = Xde.reset := by
  rw [completeCommand_eq, hw]
  rfl

/-- LDKEY with a 32-byte key, taken as a whole (R87). -/
theorem completeCommand_of_ldkey {w : CommandWord} (hw : decodeCommand w = .ldkey 32#8) (key : Bytes 32)
    (x : Xde) :
    completeCommand w key.toList x =
      (((x.accept w key.toList).loadKey key (subkeyOf key)).setErr .ok).finish := by
  have hkey : (x.accept w key.toList).keyOperand = key := firstBytes_toList key
  rw [completeCommand_eq, hw, bodyOf, ldkeyBody, if_neg (by decide), hkey]
  rfl

/-- Settles O46: CLR and its WAIT leave XDE as after reset, LDKEY and its WAIT then load the key. -/
theorem rekeyLeavesTheNewKeyOnly : Obligations.RekeyLeavesTheNewKeyOnly := by
  rintro ⟨x, host, turns, o⟩ key hb hprog
  have hlen : key.toList.length = 32 := by simp
  have hlt : key.toList.length < 2 ^ 8 := by omega
  obtain ⟨rfl, rfl⟩ : _ = host ∧ _ = turns := by
    simpa only [Option.some.injEq, Listing.mk.injEq] using (assemble_rekey hlt).symm.trans hprog
  have hclr : x.cmdReady (assembleWord 0x5#4 0#12 0#8 0#40) = true :=
    (cmdReady_iff ..).2 ⟨hb, by simp [heldByHandOff_iff]⟩
  obtain ⟨o₁, hrun₁⟩ := run_command_wait
    [.present (assembleWord 0x1#4 0#12 (BitVec.ofNat 8 key.toList.length) 0#40) key.toList, .wait]
    [.host, .engine, .host] o (by decide) hclr (d := [])
  rw [completeCommand_of_clr decodeCommand_clrWord] at hrun₁
  obtain ⟨o₂, hrun₂⟩ := run_command_wait [] [] o₁ (dataCountOk_assembleWord 0x1#4 0#40 hlt)
    ((cmdReady_iff Xde.reset _).2 ⟨rfl, by simp⟩)
  refine ⟨_, (run_add 3 3 hrun₁).trans hrun₂, rfl, ?_⟩
  show completeCommand _ _ _ = _
  rw [completeCommand_of_ldkey (by rw [hlen, decodeCommand_ldkeyWord])]
  rfl

end Sys2Proof.Machine
end

section
/-!
PROOFS. The doubling unit (spec/40_subkey.md R79 to R81). Doubling is a shift of the value and an XOR into its
lowest byte; its byte form, its laws and its inverse are read off that, the carry being the top bit.
-/

namespace Sys2Proof.Machine

/-! ### Doubling as an operation on values -/

/-- What the carry XORs into the lowest byte (R79). -/
def reduction (carry : Bool) : Byte := if carry then 0x87#8 else 0x00#8

/-- DBL128 on the big-endian value: the shift, and the reduction with the top bit as carry (R79). -/
def dblValue (v : BitVec 128) : BitVec 128 := v <<< 1 ^^^ (reduction (v.getLsbD 127)).setWidth 128

theorem setWidth_reduction (c : Bool) :
    (reduction c).setWidth 128 = if c then 0x87#128 else 0x00#128 := by
  cases c <;> rfl

theorem dbl128_eq (B : Block) : dbl128 B = bytes128 (dblValue (be128 B)) := by
  rw [dblValue, setWidth_reduction]
  rfl

@[simp] theorem be128_dbl128 (B : Block) : be128 (dbl128 B) = dblValue (be128 B) := by
  rw [dbl128_eq, be128_bytes128]

theorem be128_injective : Function.Injective be128 := Function.LeftInverse.injective bytes128_be128

/-! ### The carry -/

/-- The top bit is 1 exactly in the upper half of the values. -/
theorem getLsbD_top_iff {n : Nat} (v : BitVec n) : v.getLsbD (n - 1) = true ↔ 2 ^ (n - 1) ≤ v.toNat := by
  rw [← BitVec.msb_eq_getLsbD_last, BitVec.msb_eq_decide, decide_eq_true_iff]

/-- The carry is the top bit of `B[0]`. -/
theorem carry_be128 (B : Block) : (be128 B).getLsbD 127 = B[0].getLsbD 7 :=
  getLsbD_be128 B 0 7 (by decide) (by decide)

theorem ushiftRight_seven_eq_one_iff (b : Byte) : b >>> 7 = 1#8 ↔ b.getLsbD 7 = true := by
  have htop : b.getLsbD 7 = true ↔ 2 ^ 7 ≤ b.toNat := getLsbD_top_iff b
  have := b.isLt
  rw [htop, ← BitVec.toNat_inj, BitVec.toNat_ushiftRight, Nat.shiftRight_eq_div_pow, BitVec.toNat_ofNat]
  omega

/-- A block with a carry is one whose first byte is from 0x80 on. -/
theorem le_toNat_be128_iff (B : Block) : 2 ^ 127 ≤ (be128 B).toNat ↔ 0x80 ≤ B[0].toNat :=
  calc 2 ^ 127 ≤ (be128 B).toNat
    _ ↔ (be128 B).getLsbD 127 = true := (getLsbD_top_iff (be128 B)).symm
    _ ↔ B[0].getLsbD 7 = true := by rw [carry_be128]
    _ ↔ 0x80 ≤ B[0].toNat := getLsbD_top_iff B[0]

/-! ### The number -/

theorem toNat_shiftLeft_one (v : BitVec 128) : (v <<< 1).toNat = 2 * v.toNat % 2 ^ 128 := by
  rw [BitVec.toNat_shiftLeft, Nat.shiftLeft_eq, Nat.mul_comm]

/-- R79 without a carry. -/
theorem toNat_dblValue_of_lt {v : BitVec 128} (h : v.toNat < 2 ^ 127) : (dblValue v).toNat = 2 * v.toNat := by
  have hc : v.getLsbD 127 = false := Bool.eq_false_iff.2 ((getLsbD_top_iff v).not.2 (by omega))
  rw [dblValue, hc, setWidth_reduction, if_neg Bool.false_ne_true, BitVec.xor_zero, toNat_shiftLeft_one,
    Nat.mod_eq_of_lt (by omega)]

/-- R79 with a carry. -/
theorem toNat_dblValue_of_le {v : BitVec 128} (h : 2 ^ 127 ≤ v.toNat) :
    (dblValue v).toNat = (2 * v.toNat % 2 ^ 128) ^^^ 0x87 := by
  have hc : v.getLsbD 127 = true := (getLsbD_top_iff v).2 h
  rw [dblValue, hc, BitVec.toNat_xor, toNat_shiftLeft_one]
  rfl

/-- Settles O9: with and without a carry. -/
theorem doublingShiftsAndReduces : Obligations.DoublingShiftsAndReduces := by
  intro B
  rw [be128_dbl128]
  split_ifs with h
  · exact toNat_dblValue_of_le h
  · exact toNat_dblValue_of_lt (by omega)

/-! ### The bytes -/

/-- Above the lowest, bit `j + 1` of a shifted value is bit `j` of the value. -/
theorem getLsbD_shiftLeft_one_succ {n : Nat} (v : BitVec n) {j : Nat} (h : j + 1 < n) :
    (v <<< 1).getLsbD (j + 1) = v.getLsbD j := by
  rw [BitVec.getLsbD_shiftLeft, decide_eq_true h, decide_eq_false (by omega : ¬ j + 1 < 1)]
  rfl

theorem getLsbD_shiftLeft_one_zero {n : Nat} (v : BitVec n) : (v <<< 1).getLsbD 0 = false := by
  simp

/-- A byte of a value shifted left by one takes the top bit of the byte below it (R80). -/
theorem extractLsb'_shiftLeft_one (v : BitVec 128) (k : Nat) (h : k < 15) :
    (v <<< 1).extractLsb' (8 * (k + 1)) 8 =
      v.extractLsb' (8 * (k + 1)) 8 <<< 1 ||| v.extractLsb' (8 * k) 8 >>> 7 := by
  apply BitVec.eq_of_getLsbD_eq
  rintro (_ | j) hj
  · have hbit : (v <<< 1).getLsbD (8 * (k + 1)) = v.getLsbD (8 * k + 7) :=
      getLsbD_shiftLeft_one_succ v (j := 8 * k + 7) (by omega)
    simp only [BitVec.getLsbD_extractLsb', BitVec.getLsbD_or, BitVec.getLsbD_ushiftRight,
      getLsbD_shiftLeft_one_zero, Nat.add_zero, hbit]
    rfl
  · have hbit : (v <<< 1).getLsbD (8 * (k + 1) + (j + 1)) = v.getLsbD (8 * (k + 1) + j) :=
      getLsbD_shiftLeft_one_succ v (j := 8 * (k + 1) + j) (by omega)
    have hin : j < 8 := by omega
    have hout : ¬ 7 + (j + 1) < 8 := by omega
    simp only [BitVec.getLsbD_extractLsb', BitVec.getLsbD_or, BitVec.getLsbD_ushiftRight,
      getLsbD_shiftLeft_one_succ _ hj, hbit, hj, hin, hout, decide_true, decide_false, Bool.true_and,
      Bool.false_and, Bool.or_false]

/-- The lowest byte takes a 0. -/
theorem extractLsb'_zero_shiftLeft_one (v : BitVec 128) :
    (v <<< 1).extractLsb' 0 8 = v.extractLsb' 0 8 <<< 1 := by
  apply BitVec.eq_of_getLsbD_eq
  rintro (_ | j) hj
  · simp only [BitVec.getLsbD_extractLsb', Nat.zero_add, getLsbD_shiftLeft_one_zero, Bool.and_false]
  · have hin : j < 8 := by omega
    have hbit : (v <<< 1).getLsbD (j + 1) = v.getLsbD j := getLsbD_shiftLeft_one_succ v (by omega)
    simp only [BitVec.getLsbD_extractLsb', Nat.zero_add, getLsbD_shiftLeft_one_succ _ hj, hbit, hj, hin]

theorem extractLsb'_zero_setWidth (r : Byte) : (r.setWidth 128).extractLsb' 0 8 = r := by
  rw [← BitVec.setWidth_eq_extractLsb' (by decide), BitVec.setWidth_setWidth_of_le _ (by decide),
    BitVec.setWidth_eq]

theorem extractLsb'_setWidth_of_le (r : Byte) {k : Nat} (h : 8 ≤ k) :
    (r.setWidth 128).extractLsb' k 8 = 0#8 := by
  ext j hj
  have hr : r.getLsbD (k + j) = false := r.getLsbD_of_ge _ (by omega)
  simp [hr]

/-- Every byte but the last is shifted, and takes the top bit of the byte after it (R80). -/
theorem getElem_dbl128 (B : Block) (i : Nat) (h : i < 15) :
    (dbl128 B)[i] = B[i] <<< 1 ||| B[i + 1] >>> 7 := by
  have hpos : 15 - i = 14 - i + 1 := by omega
  have hnext : 14 - i = 15 - (i + 1) := by omega
  rw [dbl128_eq, getElem_bytes128, dblValue, BitVec.extractLsb'_xor, extractLsb'_setWidth_of_le _ (by omega),
    BitVec.xor_zero, ← extractLsb'_be128 B i (by omega), ← extractLsb'_be128 B (i + 1) (by omega), ← hnext, hpos,
    extractLsb'_shiftLeft_one _ _ (by omega)]

/-- The last byte is shifted, and reduced by the carry out of the first (R80). -/
theorem getElem_dbl128_last (B : Block) :
    (dbl128 B)[15] = B[15] <<< 1 ^^^ reduction (B[0].getLsbD 7) := by
  rw [dbl128_eq, getElem_bytes128, dblValue, BitVec.extractLsb'_xor, carry_be128,
    ← extractLsb'_be128 B 15 (by decide), Nat.sub_self, Nat.mul_zero, extractLsb'_zero_setWidth,
    extractLsb'_zero_shiftLeft_one]

/-- Settles O10: byte by byte. -/
theorem doublingByteForm : Obligations.DoublingByteForm := by
  intro B
  refine ⟨getElem_dbl128 B, ?_⟩
  simp only [getElem_dbl128_last, ushiftRight_seven_eq_one_iff, reduction]

/-! ### The laws -/

theorem reduction_xor (c d : Bool) : reduction (c ^^ d) = reduction c ^^^ reduction d := by
  cases c <;> cases d <;> rfl

/-- Shift, reduction and carry are each linear. -/
theorem dblValue_xor (v w : BitVec 128) : dblValue (v ^^^ w) = dblValue v ^^^ dblValue w := by
  simp only [dblValue, BitVec.shiftLeft_xor_distrib, BitVec.getLsbD_xor, reduction_xor, BitVec.setWidth_xor]
  ac_rfl

theorem bytes128_xor (v w : BitVec 128) : bytes128 (v ^^^ w) = xorBytes (bytes128 v) (bytes128 w) := by
  ext1 i hi
  simp only [getElem_bytes128, getElem_xorBytes, BitVec.extractLsb'_xor]

theorem be128_xorBytes (a b : Block) : be128 (xorBytes a b) = be128 a ^^^ be128 b := by
  apply bytes128_injective
  simp only [bytes128_xor, bytes128_be128]

theorem dbl128_xorBytes (a b : Block) : dbl128 (xorBytes a b) = xorBytes (dbl128 a) (dbl128 b) := by
  simp only [dbl128_eq, be128_xorBytes, dblValue_xor, bytes128_xor]

/-- 0x87 is odd and the shift's lowest bit is 0: the lowest bit of a doubled value is the carry. -/
theorem getLsbD_dblValue_zero (v : BitVec 128) : (dblValue v).getLsbD 0 = v.getLsbD 127 := by
  have hbit : ∀ c, ((reduction c).setWidth 128).getLsbD 0 = c := by decide
  rw [dblValue, BitVec.getLsbD_xor, hbit]
  simp

/-- The inverse R81 describes: undo the reduction where the carry was 1, shift back, put the carry on top. -/
def halfValue (v : BitVec 128) : BitVec 128 :=
  if v.getLsbD 0 then ((v ^^^ 0x87#128) >>> 1) ||| (1#128 <<< 127) else v >>> 1

/-- Shifting left and back loses the top bit alone. -/
theorem shiftLeft_ushiftRight_or_topBit (v : BitVec 128) :
    v <<< 1 >>> 1 ||| (if v.getLsbD 127 then 1#128 <<< 127 else 0#128) = v := by
  have htop : ∀ j, (if v.getLsbD 127 then 1#128 <<< 127 else 0#128).getLsbD j =
      (decide (127 = j) && v.getLsbD 127) := by
    intro j
    cases v.getLsbD 127
    · simp
    · exact (BitVec.getLsbD_twoPow 127 j).trans (by simp)
  apply BitVec.eq_of_getLsbD_eq
  intro j hj
  rw [BitVec.getLsbD_or, BitVec.getLsbD_ushiftRight, Nat.add_comm, htop]
  obtain hlt | rfl : j < 127 ∨ 127 = j := by omega
  · rw [getLsbD_shiftLeft_one_succ v (by omega), decide_eq_false (by omega), Bool.false_and, Bool.or_false]
  · rw [BitVec.getLsbD_of_ge _ (127 + 1) (by decide), decide_eq_true rfl, Bool.true_and, Bool.false_or]

theorem halfValue_dblValue (v : BitVec 128) : halfValue (dblValue v) = v := by
  rw [halfValue, getLsbD_dblValue_zero, dblValue, setWidth_reduction]
  refine Eq.trans ?_ (shiftLeft_ushiftRight_or_topBit v)
  cases v.getLsbD 127 <;> simp

theorem dbl128_injective : Function.Injective dbl128 := by
  intro a b h
  apply be128_injective
  rw [← halfValue_dblValue (be128 a), ← be128_dbl128, h, be128_dbl128, halfValue_dblValue]

/-- Blocks are finitely many, so an injective map on them is onto. -/
theorem dbl128_bijective : Function.Bijective dbl128 :=
  have : Finite Block := .of_injective be128 be128_injective
  Finite.injective_iff_bijective.1 dbl128_injective

/-- The last byte of a doubled block holds the carry in its lowest bit. -/
theorem odd_last_dbl128_iff (B : Block) : (dbl128 B)[15].toNat % 2 = 1 ↔ (be128 B).getLsbD 127 = true := by
  have hlast : (be128 (dbl128 B)).getLsbD 0 = (dbl128 B)[15].getLsbD 0 :=
    getLsbD_be128 (dbl128 B) 15 0 (by decide) (by decide)
  rw [← getLsbD_dblValue_zero, ← be128_dbl128, hlast, ← BitVec.testBit_toNat, Nat.testBit_zero,
    decide_eq_true_iff]

/-- Settles O11: linearity and the inverse from the shift and the carry; the two values are O9's, with the carry
read off `B[0]`. -/
theorem doublingLaws : Obligations.DoublingLaws := by
  refine ⟨by decide, dbl128_xorBytes, ⟨dbl128_bijective, fun B => ?_⟩, fun B h => ?_, fun B h => ?_,
    odd_last_dbl128_iff⟩
  · rw [be128_dbl128]
    exact (halfValue_dblValue (be128 B)).symm
  · have hlt := (le_toNat_be128_iff B).not.2 (by omega)
    rw [be128_dbl128, toNat_dblValue_of_lt (by omega)]
  · have hle := (le_toNat_be128_iff B).2 h
    have hmod : 2 * (be128 B).toNat % 2 ^ 128 = 2 * (be128 B).toNat - 2 ^ 128 := by
      have := (be128 B).isLt
      omega
    rw [be128_dbl128, toNat_dblValue_of_le hle, hmod]

end Sys2Proof.Machine
end

section
/-!
PROOFS. The commands of spec/40_subkey.md: LDKEY (R87, R88) and DBL (R91, R92) as whole next states, how many blocks
a completion enciphers (R82, R86), and that K1 stays the subkey of the loaded key (R95).
-/

namespace Sys2Proof.Machine

/-! ### A command's meaning is the completion of its body -/

theorem exec_ldkey (dlen : BitVec 8) (s : State) : exec (.ldkey dlen) s = complete (ldkeyBody dlen) s := rfl

theorem exec_sealprep (dlen : BitVec 8) (s : State) :
    exec (.sealprep dlen) s = complete (sealprepBody dlen) s := rfl

theorem exec_openprep (dlen : BitVec 8) (ctlen : BitVec 40) (s : State) :
    exec (.openprep dlen ctlen) s = complete (openprepBody dlen ctlen) s := rfl

theorem exec_dbl (dlen : BitVec 8) (s : State) : exec (.dbl dlen) s = complete (dblBody dlen) s := rfl

/-! ### The bodies, case by case -/

theorem ldkeyBody_of_latch {x : Xde} {key : Bytes 32} (h : x.latchD = key.toList) :
    ldkeyBody 32#8 x = succeed (x.loadKey key (subkeyOf key)) [zeroBlockRequest key] := by
  have hkey : x.keyOperand = key := by rw [Xde.keyOperand, h, firstBytes_toList]
  rw [ldkeyBody, if_neg (by decide), hkey]

theorem ldkeyBody_of_ne {dlen : BitVec 8} (x : Xde) (h : dlen.toNat ≠ 32) :
    ldkeyBody dlen x = raise .invalidKey x.dropKey := if_pos h

theorem dblBody_of_latch {x : Xde} {blk : Block} (h : x.latchD = blk.toList) :
    dblBody 16#8 x = succeed (x.setResult (dbl128 blk)) [] := by
  have hblk : x.blockOperand = blk := by rw [Xde.blockOperand, h, firstBytes_toList]
  rw [dblBody, if_neg (by decide), hblk]

theorem dblBody_of_ne {dlen : BitVec 8} (x : Xde) (h : dlen.toNat ≠ 16) :
    dblBody dlen x = raise .invalidBlock x.dropResult := if_pos h

theorem sealprepBody_of_unkeyed {x : Xde} (dlen : BitVec 8) (h : x.keyed = false) :
    sealprepBody dlen x = raise .notKeyed x := if_pos h

theorem openprepBody_of_unkeyed {x : Xde} (dlen : BitVec 8) (ctlen : BitVec 40) (h : x.keyed = false) :
    openprepBody dlen ctlen x = raise .notKeyed x := if_pos h

/-! ### LDKEY and DBL -/

/-- Settles O14: the latched bytes are the key operand, and the completion writes what the body loaded. -/
theorem ldkeyLoadsKeyAndSubkey : Obligations.LdkeyLoadsKeyAndSubkey := by
  intro s key h
  rw [exec_ldkey, complete, ldkeyBody_of_latch h]
  rfl

theorem exec_ldkey_of_ne {dlen : BitVec 8} (s : State) (h : dlen.toNat ≠ 32) :
    exec (.ldkey dlen) s =
      .next { s with xde := (s.xde.dropKey.setErr .invalidKey).finish, out := .aes [] } := by
  rw [exec_ldkey, complete, ldkeyBody_of_ne _ h]
  rfl

/-- A SEALPREP or OPENPREP that completes without a key instance reports NOT_KEYED (R135). -/
theorem err_of_prep_unkeyed {s t : State} {i : Instr} {n : BitVec 8} {ctlen : BitVec 40}
    (hk : s.xde.keyed = false) (hi : i = .sealprep n ∨ i = .openprep n ctlen) (h : exec i s = .next t) :
    t.xde.err = .notKeyed := by
  obtain rfl | rfl := hi
  · rw [exec_sealprep, complete_next_iff, sealprepBody_of_unkeyed n hk] at h
    rw [h]
    rfl
  · rw [exec_openprep, complete_next_iff, openprepBody_of_unkeyed n ctlen hk] at h
    rw [h]
    rfl

/-- Settles O15: the failed load drops the key, and acceptance keeps KEYED, so the next prep finds none. -/
theorem ldkeyFailureDropsTheKey : Obligations.LdkeyFailureDropsTheKey := by
  intro s dlen hd
  have hexec := exec_ldkey_of_ne s hd
  refine ⟨hexec, fun t u i w d n ctlen ht hi hu => ?_⟩
  obtain rfl := Host.Outcome.next.inj (hexec.symm.trans ht)
  exact err_of_prep_unkeyed rfl hi hu

/-- Settles O19: the latched bytes are the block operand; no key enters. -/
theorem dblDoublesTheBlock : Obligations.DblDoublesTheBlock := by
  intro s blk h
  rw [exec_dbl, complete, dblBody_of_latch h]
  rfl

/-- Settles O20: the error's body is `dropResult` and the code. -/
theorem dblFailureLeavesNoResult : Obligations.DblFailureLeavesNoResult := by
  intro s dlen h
  rw [exec_dbl, complete, dblBody_of_ne _ h]
  rfl

/-! ### The blocks a completion enciphers -/

/-- `AesUse i b`: the body of `i` may end as `b`, seen by the blocks it enciphers. -/
inductive AesUse : Instr → Body → Prop
  | error (i : Instr) (e : ErrCode) (x : Xde) (he : e ≠ .ok) : AesUse i (raise e x)
  | loadKey (dlen : BitVec 8) (k : Bytes 32) (x : Xde) :
      AesUse (.ldkey dlen) (succeed (x.loadKey k (subkeyOf k)) [zeroBlockRequest k])
  | handOffSeal (dlen : BitVec 8) (n : BitVec 40) (x : Xde) : AesUse (.sealprep dlen) (handOff .sealMode n x)
  | handOffOpen (dlen : BitVec 8) (ctlen n : BitVec 40) (x : Xde) :
      AesUse (.openprep dlen ctlen) (handOff .openMode n x)
  | nothing (i : Instr) (x : Xde) (hi : opcodeOf i ∉ [1#4, 2#4, 3#4]) : AesUse i ⟨x, []⟩

theorem bodyOf_aesUse (i : Instr) (x : Xde) : AesUse i (bodyOf i x) := by
  cases i with
  | ldkey dlen =>
    simp only [bodyOf, ldkeyBody]
    split_ifs
    · exact .error _ _ _ (by decide)
    · exact .loadKey dlen x.keyOperand x
  | sealprep dlen =>
    simp only [bodyOf, sealprepBody]
    split_ifs
    · exact .error _ _ _ (by decide)
    · exact .error _ _ _ (by decide)
    · exact .handOffSeal dlen _ x
  | openprep dlen ctlen =>
    simp only [bodyOf, openprepBody]
    split_ifs
    · exact .error _ _ _ (by decide)
    · exact .error _ _ _ (by decide)
    · exact .error _ _ _ (by decide)
    · exact .handOffOpen dlen ctlen _ x
  | dbl dlen =>
    simp only [bodyOf, dblBody]
    split_ifs
    · exact .error _ _ _ (by decide)
    · exact .nothing _ _ (by simp [opcodeOf])
  | illegal w => exact .error _ _ _ (by decide)
  | clr | rdStatus | rdParam | rdResult | rdReserved => exact .nothing _ _ (by simp [opcodeOf])

section
variable {i : Instr} {b : Body}

/-- R82: every block is presented with the MK that the body leaves. -/
theorem AesUse.key_eq {r : AesRequest} (h : AesUse i b) (hr : r ∈ b.aes) : r.key = b.xde.mk := by
  cases h with
  | error | nothing => cases hr
  | loadKey dlen k x =>
    obtain rfl := List.mem_singleton.1 hr
    rfl
  | handOffSeal dlen n x | handOffOpen dlen ctlen n x =>
    obtain rfl | rfl : r = requestLo x.mk x.k1 x.nonceOperand ∨ r = requestHi x.mk x.k1 x.nonceOperand := by
      simpa [deriveRequests] using hr
    · rfl
    · rfl

/-- R86: a body in error enciphers nothing; else LDKEY one block, SEALPREP and OPENPREP two, any other none. -/
theorem AesUse.length_eq (h : AesUse i b) :
    b.aes.length =
      if b.xde.err ≠ .ok then 0
      else if opcodeOf i = 1#4 then 1
      else if opcodeOf i = 2#4 ∨ opcodeOf i = 3#4 then 2
      else 0 := by
  cases h with
  | error i e x he => exact (if_pos he).symm
  | loadKey | handOffSeal | handOffOpen => rfl
  | nothing i x hi =>
    simp only [List.mem_cons, List.not_mem_nil, or_false, not_or] at hi
    simp [hi]

end

/-- Settles O28: the two facts about the command's body, with the opcode read from the word. -/
theorem aesInvocationsPerCompletion : Obligations.AesInvocationsPerCompletion := by
  intro s t w h
  obtain rfl := (complete_next_iff _ s t).1 ((exec_command w s).symm.trans h)
  refine ⟨_, rfl, fun r hr => (bodyOf_aesUse _ _).key_eq hr, ?_⟩
  rw [(bodyOf_aesUse _ _).length_eq, opcodeOf_decodeCommand]
  simp only [opcField_eq_iff]
  rfl

/-! ### The key instance over a run -/

/-- `i` is no command that ends or replaces the key instance (R89, R95). -/
def SparesKey (i : Instr) : Prop := i ≠ .clr ∧ ∀ n, i ≠ .ldkey n

/-- XDE has these key registers, and nothing in flight, still to come or scheduled writes them. -/
structure KeyStays (mk : Bytes 32) (k1 : Block) (keyed : Bool) (s : State) : Prop where
  mk_eq : s.xde.mk = mk
  k1_eq : s.xde.k1 = k1
  keyed_eq : s.xde.keyed = keyed
  inFlight : s.xde.busy = true → SparesKey (decodeCommand s.xde.latchW)
  toCome : ∀ w d, HostMove.present w d ∈ s.host → SparesKey (decodeCommand w)
  noReset : Turn.reset ∉ s.turns

section
variable {mk : Bytes 32} {k1 : Block} {keyed : Bool} {s t : State}

/-- With no turn scheduled the next is the engine's or the host's, so a reset comes only from the schedule. -/
theorem reset_mem_turns (h : s.turnNow = .reset) : Turn.reset ∈ s.turns := by
  obtain ⟨x, host, _ | ⟨m, ms⟩, o⟩ := s
  · rw [turnNow_nil] at h
    split_ifs at h
  · obtain rfl : m = .reset := h
    exact List.mem_cons_self

/-- The steps that write MK, K1 or KEYED are the ones `KeyStays` shuts out. -/
theorem KeyStays.key_eq (hs : KeyStays mk k1 keyed s) (h : step s = .next t) :
    t.xde.mk = s.xde.mk ∧ t.xde.k1 = s.xde.k1 ∧ t.xde.keyed = s.xde.keyed := by
  by_contra hne
  obtain ⟨hwrite, -, -⟩ := registersAreWrittenOnlyBy s t h
  obtain hr | ⟨-, hb, hc | ⟨n, hl⟩⟩ := hwrite (by tauto)
  · exact hs.noReset (reset_mem_turns hr)
  · exact (hs.inFlight hb).1 hc
  · exact (hs.inFlight hb).2 n hl

/-- The key registers are as before the step, and what is in flight after it was in flight or to come before it. -/
theorem KeyStays.of_step (hs : KeyStays mk k1 keyed s) (h : step s = .next t) : KeyStays mk k1 keyed t := by
  obtain ⟨hhost, hturns, hx⟩ := step_next_xde h
  obtain ⟨hmk, hk1, hkeyed⟩ := hs.key_eq h
  refine ⟨hmk.trans hs.mk_eq, hk1.trans hs.k1_eq, hkeyed.trans hs.keyed_eq, ?_,
    fun w d hm => hs.toCome w d ?_, fun hm => hs.noReset ?_⟩
  · obtain hx | ⟨-, -, hx⟩ | ⟨-, w, d, rest, hh, -, -, hx⟩ | ⟨-, -, hx⟩ | ⟨-, hx⟩ := hx <;> rw [hx]
    · exact hs.inFlight
    · exact nofun
    · exact fun _ => hs.toCome w d (hh ▸ List.mem_cons_self)
    · exact hs.inFlight
    · exact nofun
  · obtain hhost | hhost := hhost <;> rw [hhost] at hm
    · exact hm
    · exact List.mem_of_mem_tail hm
  · exact List.mem_of_mem_tail (hturns ▸ hm)

end

/-- Settles O45: the premises are `KeyStays` of the state's key, and every step keeps it. -/
theorem subkeyIsFixedForTheKeyInstance : Obligations.SubkeyIsFixedForTheKeyInstance := by
  intro s t key k hmk hk1 hspare hreset h
  have hs : KeyStays key (subkeyOf key) s.xde.keyed s :=
    ⟨hmk, hk1, rfl, fun hb => hspare _ (.inl ⟨hb, rfl⟩), fun w d hm => hspare _ (.inr ⟨w, d, hm, rfl⟩),
      hreset⟩
  have ht := run_keeps (fun _ _ => KeyStays.of_step) k s t hs h
  exact ⟨ht.mk_eq, ht.k1_eq, ht.keyed_eq⟩

end Sys2Proof.Machine
end

section
/-!
PROOFS. The derivation of spec/41_derive.md: DERIVE byte for byte (R97 to R102) and its laws (R110); SEALPREP and
OPENPREP as whole next states, in success and in error (R105 to R107), and that both hand off one key (R111).
-/

namespace Sys2Proof.Machine

/-! ### The two blocks of a derivation and what the key reads -/

section
variable (mk : Bytes 32) (k1 : Block) (n : Bytes 24)

theorem requestLo_block_tag :
    (requestLo mk k1 n).block[0] = 0x00#8 ^^^ k1[0] ∧ (requestLo mk k1 n).block[1] = 0x01#8 ^^^ k1[1] ∧
      (requestLo mk k1 n).block[2] = 0x58#8 ^^^ k1[2] ∧ (requestLo mk k1 n).block[3] = 0x00#8 ^^^ k1[3] := by
  obtain ⟨h0, h1, h2, h3⟩ := blockM1_tag n
  simp [requestLo, h0, h1, h2, h3]

theorem requestHi_block_tag :
    (requestHi mk k1 n).block[0] = 0x00#8 ^^^ k1[0] ∧ (requestHi mk k1 n).block[1] = 0x02#8 ^^^ k1[1] ∧
      (requestHi mk k1 n).block[2] = 0x58#8 ^^^ k1[2] ∧ (requestHi mk k1 n).block[3] = 0x00#8 ^^^ k1[3] := by
  obtain ⟨h0, h1, h2, h3⟩ := blockM2_tag n
  simp [requestHi, h0, h1, h2, h3]

theorem requestLo_block_nonce (i : Nat) (h : i < 12) :
    (requestLo mk k1 n).block[4 + i] = n[i] ^^^ k1[4 + i] := by
  simp [requestLo, blockM1_nonce n i h]

theorem requestHi_block_nonce (i : Nat) (h : i < 12) :
    (requestHi mk k1 n).block[4 + i] = n[i] ^^^ k1[4 + i] := by
  simp [requestHi, blockM2_nonce n i h]

/-- X1 and X2 come from one nonce prefix and differ only in the tag byte that counts the block (R110 (c)). -/
theorem getElem_request_block_of_ne_one (i : Nat) (h : i < 16) (hi : i ≠ 1) :
    (requestLo mk k1 n).block[i] = (requestHi mk k1 n).block[i] := by
  obtain ⟨lo0, -, lo2, lo3⟩ := requestLo_block_tag mk k1 n
  obtain ⟨hi0, -, hi2, hi3⟩ := requestHi_block_tag mk k1 n
  by_cases h4 : 4 ≤ i
  · obtain ⟨j, rfl⟩ := Nat.exists_eq_add_of_le h4
    rw [requestLo_block_nonce mk k1 n j (by omega), requestHi_block_nonce mk k1 n j (by omega)]
  · obtain rfl | rfl | rfl : i = 0 ∨ i = 2 ∨ i = 3 := by omega
    · rw [lo0, hi0]
    · rw [lo2, hi2]
    · rw [lo3, hi3]

/-- The two block counters are 1 and 2, and K1 cancels (R110 (c)). -/
theorem request_block_one_xor :
    (requestLo mk k1 n).block[1] ^^^ (requestHi mk k1 n).block[1] = 0x03#8 := by
  obtain ⟨-, lo1, -, -⟩ := requestLo_block_tag mk k1 n
  obtain ⟨-, hi1, -, -⟩ := requestHi_block_tag mk k1 n
  calc (requestLo mk k1 n).block[1] ^^^ (requestHi mk k1 n).block[1]
      = (0x01#8 ^^^ k1[1]) ^^^ (0x02#8 ^^^ k1[1]) := by rw [lo1, hi1]
    _ = (0x01#8 ^^^ 0x02#8) ^^^ (k1[1] ^^^ k1[1]) := by ac_rfl
    _ = 0x03#8 := by rw [BitVec.xor_self]; rfl

theorem request_blocks_ne : (requestLo mk k1 n).block ≠ (requestHi mk k1 n).block := by
  intro h
  have hxor := request_block_one_xor mk k1 n
  rw [h, BitVec.xor_self] at hxor
  exact absurd hxor (by decide)

/-- The nonce enters the key by its prefix only (R110 (a)). -/
theorem derivedKey_congr {n n' : Bytes 24} (h : noncePrefix n = noncePrefix n') :
    derivedKey mk k1 n = derivedKey mk k1 n' := by
  simp only [derivedKey, requestLo, requestHi, blockM1, blockM2, h]

/-- A cipher that is injective under MK keeps X1 and X2 apart (R110 (c)). -/
theorem derivedKey_halves_ne (hinj : Function.Injective (Config.aes256Enc mk)) :
    ∃ (i : Nat) (h : i < 16), (derivedKey mk k1 n)[i] ≠ (derivedKey mk k1 n)[16 + i] := by
  by_contra! hsame
  refine request_blocks_ne mk k1 n (hinj (Vector.ext fun i h => ?_))
  exact (derivedKey_lo mk k1 n i h).symm.trans ((hsame i h).trans (derivedKey_hi mk k1 n i h))

end

/-! ### DERIVE and its laws -/

/-- Settles O12: `x1` and `x2` are X1 and X2 by their bytes, and the halves of the key are their encipherments. -/
theorem deriveKeyAndIv : Obligations.DeriveKeyAndIv := by
  intro mk k1 x1 x2 n a0 a1 a2 a3 an b0 b1 b2 b3 bn
  obtain ⟨lo0, lo1, lo2, lo3⟩ := requestLo_block_tag mk k1 n
  obtain ⟨hi0, hi1, hi2, hi3⟩ := requestHi_block_tag mk k1 n
  have hx1 : x1 = (requestLo mk k1 n).block :=
    block_ext_tag (a0.trans lo0.symm) (a1.trans lo1.symm) (a2.trans lo2.symm) (a3.trans lo3.symm)
      fun i h => (an i h).trans (requestLo_block_nonce mk k1 n i h).symm
  have hx2 : x2 = (requestHi mk k1 n).block :=
    block_ext_tag (b0.trans hi0.symm) (b1.trans hi1.symm) (b2.trans hi2.symm) (b3.trans hi3.symm)
      fun i h => (bn i h).trans (requestHi_block_nonce mk k1 n i h).symm
  subst hx1 hx2
  exact ⟨derivedKey_lo mk k1 n, derivedKey_hi mk k1 n, getElem_nonceSuffix n⟩

/-- Settles O13: key and IV by the part of the nonce each reads, the blocks by their tag bytes. -/
theorem derivationLaws : Obligations.DerivationLaws := by
  refine ⟨fun mk k1 n n' h => derivedKey_congr mk k1 (Vector.ext fun i hi => ?_),
    fun mk mk' k1 k1' n n' h => Vector.ext fun i hi => ?_, fun mk k1 n => ?_⟩
  · simpa using h i hi
  · simpa [derive] using h i hi
  · obtain ⟨lo0, -, lo2, lo3⟩ := requestLo_block_tag mk k1 n
    exact ⟨getElem_request_block_of_ne_one mk k1 n, request_block_one_xor mk k1 n, request_blocks_ne mk k1 n,
      fun hbij => derivedKey_halves_ne mk k1 n hbij.injective, lo0.trans BitVec.zero_xor,
      lo2.trans (BitVec.xor_comm _ _), lo3.trans BitVec.zero_xor⟩

/-! ### The bodies of SEALPREP and OPENPREP, case by case -/

/-- CTLEN - 16 does not wrap where the pre-check lets it through (R107, R108). -/
theorem bodyLength_of_le {ctlen : BitVec 40} (h : 16 ≤ ctlen.toNat) :
    bodyLength ctlen = BitVec.ofNat 40 (ctlen.toNat - 16) := by
  apply BitVec.eq_of_toNat_eq
  simp only [bodyLength, Config.tagOverhead, BitVec.toNat_sub, BitVec.toNat_ofNat]
  omega

section
variable {x : Xde} {dlen : BitVec 8} {ctlen : BitVec 40} (hk : x.keyed = true)

theorem handOff_of_latch {n : Bytes 24} (m : Mode) (bodylen : BitVec 40) (h : x.latchD = n.toList) :
    handOff m bodylen x =
      succeed (x.emitAead m (derive x.mk x.k1 n).1 (derive x.mk x.k1 n).2 bodylen)
        (deriveRequests x.mk x.k1 n) := by
  have hn : x.nonceOperand = n := by rw [Xde.nonceOperand, h, firstBytes_toList]
  rw [handOff, hn]

include hk

theorem sealprepBody_of_keyed : sealprepBody 24#8 x = handOff .sealMode 0#40 x := by
  rw [sealprepBody, if_neg (by simp [hk]), if_neg (by decide)]

theorem sealprepBody_of_dlen_ne (hd : dlen.toNat ≠ 24) : sealprepBody dlen x = raise .invalidNonce x := by
  rw [sealprepBody, if_neg (by simp [hk]), if_pos hd]

theorem openprepBody_of_keyed (hc : 16 ≤ ctlen.toNat) :
    openprepBody 24#8 ctlen x = handOff .openMode (BitVec.ofNat 40 (ctlen.toNat - 16)) x := by
  rw [openprepBody, if_neg (by simp [hk]), if_neg (by decide), if_neg (Nat.not_lt.2 hc), bodyLength_of_le hc]

theorem openprepBody_of_dlen_ne (hd : dlen.toNat ≠ 24) :
    openprepBody dlen ctlen x = raise .invalidNonce x := by
  rw [openprepBody, if_neg (by simp [hk]), if_pos hd]

theorem openprepBody_of_ctlen_lt (hd : dlen.toNat = 24) (hc : ctlen.toNat < 16) :
    openprepBody dlen ctlen x = raise .invalidCiphertext x := by
  rw [openprepBody, if_neg (by simp [hk]), if_neg (not_not.2 hd), if_pos hc]

end

/-! ### SEALPREP and OPENPREP -/

/-- Settles O16: the latched bytes are the nonce, and the completion writes the hand-off of the body. -/
theorem sealprepHandsOff : Obligations.SealprepHandsOff := by
  intro s n hk h
  rw [exec_sealprep, complete, sealprepBody_of_keyed hk, handOff_of_latch _ _ h]
  rfl

/-- Settles O17: as SEALPREP, with the body length that the pre-check makes exact. -/
theorem openprepHandsOff : Obligations.OpenprepHandsOff := by
  intro s n ctlen hk h hc
  rw [exec_openprep, complete, openprepBody_of_keyed hk hc, handOff_of_latch _ _ h]
  rfl

/-- A body that only raises an error changes ERR and what every completion ends, and enciphers nothing (R86). -/
theorem complete_of_raise {body : Xde → Body} {s : State} {e : ErrCode} (h : body s.xde = raise e s.xde) :
    complete body s = .next { s with xde := (s.xde.setErr e).finish, out := .aes [] } := by
  rw [complete, h]
  rfl

/-- Settles O18: in each case of the priority order the body is `raise` of that code on XDE as it was. -/
theorem prepErrorsLeaveNoOutput : Obligations.PrepErrorsLeaveNoOutput := by
  refine fun s dlen ctlen e => ⟨fun h => ?_, fun h => ?_⟩
  · rw [exec_sealprep]
    obtain ⟨hk, rfl⟩ | ⟨hk, hd, rfl⟩ := h
    · exact complete_of_raise (sealprepBody_of_unkeyed dlen hk)
    · exact complete_of_raise (sealprepBody_of_dlen_ne hk hd)
  · rw [exec_openprep]
    obtain ⟨hk, rfl⟩ | ⟨hk, hd, rfl⟩ | ⟨hk, hd, hc, rfl⟩ := h
    · exact complete_of_raise (openprepBody_of_unkeyed dlen ctlen hk)
    · exact complete_of_raise (openprepBody_of_dlen_ne hk hd)
    · exact complete_of_raise (openprepBody_of_ctlen_lt hk hd hc)

/-- Settles O24: both completions are the one hand-off, with another mode and body length. -/
theorem sealAndOpenHandOffTheSameKey : Obligations.SealAndOpenHandOffTheSameKey := by
  intro s t u ctlen hk hc ht hu
  rw [exec_sealprep, complete_next_iff, sealprepBody_of_keyed hk] at ht
  rw [exec_openprep, complete_next_iff, openprepBody_of_keyed hk hc] at hu
  subst ht hu
  exact ⟨rfl, rfl, rfl, rfl, rfl⟩

end Sys2Proof.Machine
end

section
/-!
PROOFS. Control (spec/42_control.md): CLR and ILLEGAL as whole next states (R113 to R115), the host's reads (R119,
R120), what one turn of each agent does (R116 to R118, R121, R122, R150), and what lifts the hold of a SEALPREP or
OPENPREP behind a hand-off (R118, R157).
-/

namespace Sys2Proof.Machine

/-! ### CLR and ILLEGAL -/

theorem exec_illegal (w : CommandWord) (s : State) : exec (.illegal w) s = complete illegalBody s := rfl

/-- CLR's writes and the end of the command leave no register as it was (R113, R114). -/
theorem finish_clrBody (x : Xde) : (clrBody x).xde.finish = Xde.reset := rfl

theorem exec_clr (s : State) : exec .clr s = .next { s with xde := Xde.reset, out := .aes [] } := by
  show complete clrBody s = _
  rw [complete, finish_clrBody]
  rfl

/-- Settles O21: CLR drops the key with every other register, and acceptance keeps KEYED, so the next prep finds
none. -/
theorem clrLeavesTheResetState : Obligations.ClrLeavesTheResetState := by
  refine fun s => ⟨exec_clr s, by decide, fun t u i w d dlen ctlen ht hi hu => ?_⟩
  obtain rfl := Host.Outcome.next.inj ((exec_clr s).symm.trans ht)
  exact err_of_prep_unkeyed rfl hi hu

/-- Settles O22: the body only raises the code, whatever the word. -/
theorem illegalReportsOnlyTheError : Obligations.IllegalReportsOnlyTheError := fun s w =>
  (exec_illegal w s).trans (complete_of_raise rfl)

/-! ### Reads -/

/-- A 32-bit register on RDATA has the register's value (R54). -/
@[simp] theorem be128_zext128 (v : BitVec 32) : be128 (zext128 v) = v.setWidth 128 :=
  be128_bytes128 _

/-- Settles O23: each selector's read is a response with the register's value. -/
theorem hostReadsReturnTheRegister : Obligations.HostReadsReturnTheRegister := by
  refine fun s => ⟨⟨zext128 s.xde.status, exec_read 0b00#2 s, be128_zext128 _⟩,
    ⟨zext128 paramReg, exec_read 0b01#2 s, ?_⟩, exec_read 0b10#2 s, exec_read 0b11#2 s⟩
  rw [be128_zext128, paramReg_eq]
  rfl

/-! ### A turn runs the decoded instruction -/

theorem engineTurn_of_busy {s : State} (hb : s.xde.busy = true) :
    engineTurn s = exec (decode (.command s.xde.latchW)) s := if_pos hb

theorem hostTurn_read (x : Xde) (rsel : BitVec 2) (rest : List HostMove) (ms : List Turn) (o : Output) :
    hostTurn ⟨x, .read rsel :: rest, ms, o⟩ = exec (decode (.read rsel)) ⟨x, rest, ms, o⟩ := rfl

/-- Settles O32: the scheduled turn, or with none scheduled the one BUSY gives, is the engine's completion or the
host's read. -/
theorem stepRunsTheDecodedInstruction : Obligations.StepRunsTheDecodedInstruction := by
  rintro ⟨x, host, turns, o⟩ rest more rsel
  refine ⟨?_, ?_, ?_, ?_⟩
  · rintro hb rfl
    exact (step_of_turnNow (turnNow_cons ..)).trans (engineTurn_of_busy hb)
  · rintro hb rfl
    exact (step_of_turnNow ((turnNow_nil ..).trans (if_pos hb))).trans (engineTurn_of_busy hb)
  · rintro rfl rfl
    exact (step_of_turnNow (turnNow_cons ..)).trans (hostTurn_read ..)
  · rintro hb rfl rfl
    have hn : (State.mk x (.read rsel :: more) [] o).turnNow = .host :=
      (turnNow_nil ..).trans (if_neg (Bool.eq_false_iff.1 hb))
    exact (step_of_turnNow hn).trans (hostTurn_read ..)

/-! ### A presentation -/

/-- The host's duty on the data count, with DLEN read by division (R63, R160). -/
theorem dataCountOk_of_length {w : CommandWord} {d : List Byte}
    (h : d.length = w.toNat / 2 ^ 40 % 2 ^ 8) : dataCountOk w d = true :=
  (dataCountOk_iff w d).2 (h.trans (dlenField_toNat w).symm)

/-- What CMD_READY holds stays where it is, and nothing of it is latched (R118). -/
theorem step_hold {x : Xde} {w : CommandWord} {d : List Byte} (rest : List HostMove) (ms : List Turn)
    (o : Output) (hd : dataCountOk w d = true) (hr : x.cmdReady w = false) :
    step ⟨x, .present w d :: rest, .host :: ms, o⟩ =
      .next ⟨x, .present w d :: rest, ms, .cmdReady false⟩ := by
  rw [step_of_turnNow (turnNow_cons ..), runTurn, hostTurn_next_iff]
  exact .inr (.inl ⟨w, d, rest, rfl, hd, .inr ⟨hr, rfl⟩⟩)

/-- Settles O33: the presentation's step with CMD_READY 1 and with CMD_READY 0. -/
theorem acceptOrHold : Obligations.AcceptOrHold := by
  rintro ⟨x, host, turns, o⟩ w d more rest rfl rfl hlen
  have hd := dataCountOk_of_length hlen
  exact ⟨step_accept more rest o hd, step_hold more rest o hd⟩

theorem step_withdraw (x : Xde) (w : CommandWord) (d : List Byte) (rest : List HostMove) (ms : List Turn)
    (o : Output) : step ⟨x, .present w d :: rest, .withdraw :: ms, o⟩ = .next ⟨x, rest, ms, .quiet⟩ := rfl

/-! ### An acknowledge and a reset -/

section
variable {x : Xde} (host : List HostMove) (ms : List Turn) (o : Output)

theorem step_ack_of_pending (hv : x.aead.valid = true) :
    step ⟨x, host, .consumer :: ms, o⟩ = .next ⟨x.dropAead, host, ms, .quiet⟩ := by
  rw [step_of_turnNow (turnNow_cons ..), runTurn, ackStep_next_iff]
  exact .inl ⟨hv, rfl⟩

theorem step_ack_of_none (hv : x.aead.valid = false) :
    step ⟨x, host, .consumer :: ms, o⟩ = .next ⟨x, host, ms, .quiet⟩ := by
  rw [step_of_turnNow (turnNow_cons ..), runTurn, ackStep_next_iff]
  exact .inr ⟨hv, rfl⟩

theorem step_reset : step ⟨x, host, .reset :: ms, o⟩ = .next ⟨Xde.reset, host, ms, .quiet⟩ := rfl

end

/-- Settles O34: the acknowledge's step with AEAD_VALID 1 and with AEAD_VALID 0. -/
theorem acknowledgeZeroesTheHandOff : Obligations.AcknowledgeZeroesTheHandOff := by
  rintro ⟨x, host, turns, o⟩ rest rfl
  exact ⟨step_ack_of_pending host rest o, step_ack_of_none host rest o⟩

/-! ### The hold and its release -/

/-- R37 for the opcodes that a hand-off holds back. -/
theorem cmdReady_of_pending {x : Xde} {w : CommandWord} (hv : x.aead.valid = true)
    (hw : w.toNat / 2 ^ 60 = 2 ∨ w.toNat / 2 ^ 60 = 3) : x.cmdReady w = false :=
  Bool.eq_false_iff.2 fun hr => ((commandReadyFormula x w).1 hr).2 ⟨hw, hv⟩

/-- An idle XDE without a hand-off is ready for every word (R37). -/
theorem cmdReady_of_no_handOff {x : Xde} (w : CommandWord) (hb : x.busy = false) (hv : x.aead.valid = false) :
    x.cmdReady w = true :=
  (cmdReady_iff x w).2 ⟨hb, by simp [hv]⟩

/-- An idle XDE is ready for a CLR, hand-off or not (R37). -/
theorem cmdReady_of_clr {x : Xde} (hb : x.busy = false) : x.cmdReady 0x5000000000000000#64 = true :=
  (cmdReady_iff x _).2 ⟨hb, fun h => absurd h.1 (by decide)⟩

/-- The completion of an accepted CLR leaves every register at its reset value (R114). -/
theorem step_engine_of_clr {w : CommandWord} (hw : decodeCommand w = .clr) (d : List Byte) (x : Xde)
    (host : List HostMove) (ms : List Turn) (o : Output) :
    step ⟨x.accept w d, host, .engine :: ms, o⟩ = .next ⟨Xde.reset, host, ms, .aes []⟩ := by
  rw [step_engine host ms o rfl, Xde.accept_latchW, hw]
  rfl

/-- Settles O48: the first turn is held; the acknowledge, the reset or the CLR then leaves an idle XDE without a
hand-off, which accepts the presentation. -/
theorem heldCommandIsAcceptedOnceReleased : Obligations.HeldCommandIsAcceptedOnceReleased := by
  rintro ⟨x, host, turns, o⟩ w d more hb hv hw hlen
  have hd : dataCountOk w d = true := dataCountOk_of_length hlen
  have hheld : x.cmdReady w = false := cmdReady_of_pending hv hw
  have hacked : x.dropAead.cmdReady w = true := cmdReady_of_no_handOff w hb rfl
  have hreset : Xde.reset.cmdReady w = true := cmdReady_of_no_handOff w rfl rfl
  refine ⟨?_, ?_, ?_⟩
  · rintro rfl rfl
    rw [run_succ_of_step _ (step_hold _ _ _ hd hheld), run_succ_of_step _ (step_ack_of_pending _ _ _ hv),
      run_succ_of_step _ (step_accept _ _ _ hd hacked)]
    exact ⟨_, rfl, rfl, rfl⟩
  · rintro rfl rfl
    rw [run_succ_of_step _ (step_hold _ _ _ hd hheld), run_succ_of_step _ (step_reset _ _ _),
      run_succ_of_step _ (step_accept _ _ _ hd hreset)]
    exact ⟨_, rfl, rfl, rfl⟩
  · rintro rfl rfl
    rw [run_succ_of_step _ (step_hold _ _ _ hd hheld), run_succ_of_step _ (step_withdraw _ _ _ _ _ _),
      run_succ_of_step _ (step_accept _ _ _ (by decide) (cmdReady_of_clr hb)),
      run_succ_of_step _ (step_engine_of_clr (by decide) _ _ _ _ _),
      run_succ_of_step _ (step_accept _ _ _ hd hreset)]
    exact ⟨_, rfl, rfl, rfl⟩

end Sys2Proof.Machine
end

section
/-!
PROOFS. Errors (spec/60_exceptions.md): the code a completion reports (R138, R149), and an acknowledge and a
completion in either order (R139).
-/

namespace Sys2Proof.Machine

/-! ### The code a body sets -/

section
variable (x : Xde) (dlen : BitVec 8) (ctlen : BitVec 40)

theorem err_ldkeyBody : (ldkeyBody dlen x).xde.err = if dlen.toNat ≠ 32 then .invalidKey else .ok := by
  unfold ldkeyBody
  split_ifs <;> rfl

theorem err_sealprepBody :
    (sealprepBody dlen x).xde.err =
      if x.keyed = false then .notKeyed else if dlen.toNat ≠ 24 then .invalidNonce else .ok := by
  unfold sealprepBody
  split_ifs <;> rfl

theorem err_openprepBody :
    (openprepBody dlen ctlen x).xde.err =
      if x.keyed = false then .notKeyed
      else if dlen.toNat ≠ 24 then .invalidNonce
      else if ctlen.toNat < 16 then .invalidCiphertext
      else .ok := by
  unfold openprepBody
  split_ifs <;> rfl

theorem err_dblBody : (dblBody dlen x).xde.err = if dlen.toNat ≠ 16 then .invalidBlock else .ok := by
  unfold dblBody
  split_ifs <;> rfl

end

/-- A word that decodes to `i` is the word `i` encodes to. -/
theorem word_of_decodeCommand {w v : CommandWord} {i : Instr} (hi : decodeCommand w = i)
    (hv : encode i = .command v) : w = v := by
  rw [← hi, encode_decodeCommand] at hv
  exact Encoding.command.inj hv

/-- Settles O26: a word that decodes to a command is the assembly of that command's fields, so in R138's list only
the conditions that the command's own body tests are left. -/
theorem firstErrorInPriorityOrder : Obligations.FirstErrorInPriorityOrder := by
  intro s t w h
  obtain rfl := (complete_next_iff _ s t).1 ((exec_command w s).symm.trans h)
  simp only [← opcField_toNat, ← dlenField_toNat, ← ctlenField_toNat, Xde.finish_err]
  cases hi : decodeCommand w with
  | ldkey dlen =>
    obtain rfl := word_of_decodeCommand hi rfl
    simp [bodyOf, err_ldkeyBody]
  | sealprep dlen =>
    obtain rfl := word_of_decodeCommand hi rfl
    simp [bodyOf, err_sealprepBody]
  | openprep dlen ctlen =>
    obtain rfl := word_of_decodeCommand hi rfl
    simp [bodyOf, err_openprepBody]
  | dbl dlen =>
    obtain rfl := word_of_decodeCommand hi rfl
    simp [bodyOf, err_dblBody]
  | clr =>
    obtain rfl := word_of_decodeCommand hi rfl
    simp [bodyOf, clrBody]
  | illegal v =>
    obtain rfl := word_of_decodeCommand hi rfl
    simp [bodyOf, illegalBody]
  | rdStatus | rdParam | rdResult | rdReserved =>
    cases (congrArg encode hi).symm.trans (encode_decodeCommand w)

/-- Settles O27: each code's condition in R138's list names the opcodes that can report it, and R71 makes every word
of a reserved opcode illegal. -/
theorem outcomesPerCommand : Obligations.OutcomesPerCommand := by
  intro s t w h
  have hreserved : w.toNat / 2 ^ 60 = 0 ∨ 6 ≤ w.toNat / 2 ^ 60 → decodeCommand w = .illegal w := fun ho =>
    (illegalWordsAreTheListedOnes w).2 (by tauto)
  rw [firstErrorInPriorityOrder s t w h]
  generalize w.toNat / 2 ^ 60 = opc at *
  by_cases hill : decodeCommand w = .illegal w
  · simp [hill, ErrCode.bits]
  · have hcommand : ¬ (opc = 0 ∨ 6 ≤ opc) := fun ho => hill (hreserved ho)
    rw [if_neg hill]
    -- What is left of each code is which opcodes its condition allows, and with `hcommand` which are left for 0.
    split_ifs <;> simp [ErrCode.bits] <;> omega

/-! ### An acknowledge and a completion -/

/-- In a state with the invariants the registers of no hand-off are zero already, so an acknowledge zeroes them in
any case (R44 (c), R121, R122). -/
theorem step_ack_of_inv {x : Xde} (hx : x.Inv) (host : List HostMove) (ms : List Turn) (o : Output) :
    step ⟨x, host, .consumer :: ms, o⟩ = .next ⟨x.dropAead, host, ms, .quiet⟩ := by
  cases hv : x.aead.valid with
  | true => exact step_ack_of_pending host ms o hv
  | false =>
    have hdrop : x.dropAead = x := by rw [Xde.dropAead, ← hx.noHandOffZero hv]
    rw [hdrop]
    exact step_ack_of_none host ms o hv

/-- A command that is neither SEALPREP nor OPENPREP reads no AEAD register, and writes none that an acknowledge
would leave different. -/
theorem bodyOf_dropAead {i : Instr} (x : Xde) (h : ¬ (opcodeOf i = 2#4 ∨ opcodeOf i = 3#4)) :
    (bodyOf i x.dropAead).xde = (bodyOf i x).xde.dropAead := by
  cases i with
  | ldkey dlen =>
    simp only [bodyOf, ldkeyBody]
    split_ifs <;> rfl
  | dbl dlen =>
    simp only [bodyOf, dblBody]
    split_ifs <;> rfl
  | sealprep | openprep => simp [opcodeOf] at h
  | clr | illegal | rdStatus | rdParam | rdResult | rdReserved => rfl

theorem run_two {s u t : State} (hu : step s = .next u) (ht : step u = .next t) : core.run 2 s = .next t :=
  (run_succ_of_step 1 hu).trans (run_succ_of_step 0 ht)

/-- Settles O37: behind a pending hand-off no SEALPREP or OPENPREP is in flight, and every other completion commutes
with zeroing the AEAD registers. -/
theorem acknowledgeCommutesWithCompletion : Obligations.AcknowledgeCommutesWithCompletion := by
  intro s hx hb hv
  have hprep : ¬ (opcodeOf (decodeCommand s.xde.latchW) = 2#4 ∨ opcodeOf (decodeCommand s.xde.latchW) = 3#4) := by
    rw [opcodeOf_decodeCommand, ← heldByHandOff_iff]
    exact fun hheld => Bool.false_ne_true ((hx.heldNotInFlight hb hheld).symm.trans hv)
  exact ⟨_, _, run_two (step_ack_of_inv hx _ _ _) (step_engine _ _ _ hb),
    run_two (step_engine _ _ _ hb) (step_ack_of_inv (hx.complete _) _ _ _),
    congrArg Xde.finish (bodyOf_dropAead s.xde hprep)⟩

end Sys2Proof.Machine
end

section
/-!
PROOFS. What the host sees does not depend on secrets (spec/60_exceptions.md R127, R142): every write of XDE's
registers keeps two states alike to the host, so every turn does, and so does every run.
-/

namespace Sys2Proof.Machine

/-! ### Two XDEs that are alike to the host -/

/-- The part of `SameToHost` that is about XDE's registers. -/
structure Xde.Alike (x y : Xde) : Prop where
  keyed : x.keyed = y.keyed
  busy : x.busy = y.busy
  err : x.err = y.err
  resValid : x.resValid = y.resValid
  result : x.result = y.result
  aeadValid : x.aead.valid = y.aead.valid
  aeadMode : x.aead.mode = y.aead.mode
  aeadBodylen : x.aead.bodylen = y.aead.bodylen
  latchW : x.latchW = y.latchW
  latchD : DataLike x.latchW x.latchD y.latchD

theorem sameToHost_iff (s t : State) :
    SameToHost s t ↔ s.xde.Alike t.xde ∧ List.Forall₂ MoveLike s.host t.host ∧ s.turns = t.turns ∧
      hostView s.out = hostView t.out :=
  ⟨fun h => ⟨{ h with }, h.host, h.turns, h.out⟩, fun ⟨hx, host, turns, out⟩ => { hx with host, turns, out }⟩

theorem dataLike_refl (w : CommandWord) (d : List Byte) : DataLike w d d := ⟨rfl, fun _ _ => rfl⟩

namespace Xde.Alike

theorem refl (x : Xde) : x.Alike x := ⟨rfl, rfl, rfl, rfl, rfl, rfl, rfl, rfl, rfl, dataLike_refl _ _⟩

variable {x y : Xde} (h : x.Alike y)
include h

/-! What the host reads. -/

theorem status_eq : x.status = y.status := by
  simp only [Xde.status, h.err, h.resValid, h.aeadValid, h.keyed, h.busy]

theorem readValue_eq (rsel : BitVec 2) : readValue rsel x = readValue rsel y := by
  simp only [readValue, h.status_eq, h.result]

theorem cmdReady_eq (w : CommandWord) : x.cmdReady w = y.cmdReady w := by
  simp only [Xde.cmdReady, h.busy, h.aeadValid]

/-! The writes of XDE's registers; the key, the subkey, the derived key and the IV may differ. -/

theorem setErr (e : ErrCode) : (x.setErr e).Alike (y.setErr e) := { h with err := rfl }

theorem loadKey (k k' : Bytes 32) (k1 k1' : Block) : (x.loadKey k k1).Alike (y.loadKey k' k1') :=
  { h with keyed := rfl }

theorem dropKey : x.dropKey.Alike y.dropKey := { h with keyed := rfl }

theorem setResult (v : Block) : (x.setResult v).Alike (y.setResult v) :=
  { h with result := rfl, resValid := rfl }

theorem dropResult : x.dropResult.Alike y.dropResult := { h with result := rfl, resValid := rfl }

theorem emitAead (m : Mode) (k k' : Bytes 32) (iv iv' : Bytes 12) (n : BitVec 40) :
    (x.emitAead m k iv n).Alike (y.emitAead m k' iv' n) :=
  { h with aeadValid := rfl, aeadMode := rfl, aeadBodylen := rfl }

theorem dropAead : x.dropAead.Alike y.dropAead :=
  { h with aeadValid := rfl, aeadMode := rfl, aeadBodylen := rfl }

theorem accept {w : CommandWord} {d d' : List Byte} (hd : DataLike w d d') :
    (x.accept w d).Alike (y.accept w d') :=
  { h with busy := rfl, err := rfl, latchW := rfl, latchD := hd }

theorem finish : x.finish.Alike y.finish :=
  { h with busy := rfl, latchW := rfl, latchD := dataLike_refl _ _ }

/-! Completions: the errors depend on KEYED and the word alone, and RESULT on the data of a DBL (R127). -/

theorem handOff (m : Mode) (n : BitVec 40) : (handOff m n x).xde.Alike (handOff m n y).xde :=
  (h.emitAead m _ _ _ _ n).setErr .ok

theorem bodyOf (i : Instr) (hd : ∀ n, i = .dbl n → x.latchD = y.latchD) :
    (bodyOf i x).xde.Alike (bodyOf i y).xde := by
  cases i with
  | ldkey dlen =>
    simp only [Machine.bodyOf, ldkeyBody]
    split_ifs
    · exact h.dropKey.setErr _
    · exact (h.loadKey ..).setErr _
  | sealprep dlen =>
    simp only [Machine.bodyOf, sealprepBody, h.keyed]
    split_ifs
    · exact h.setErr _
    · exact h.setErr _
    · exact h.handOff ..
  | openprep dlen ctlen =>
    simp only [Machine.bodyOf, openprepBody, h.keyed]
    split_ifs
    · exact h.setErr _
    · exact h.setErr _
    · exact h.setErr _
    · exact h.handOff ..
  | dbl dlen =>
    simp only [Machine.bodyOf, dblBody, Xde.blockOperand, hd dlen rfl]
    split_ifs
    · exact h.dropResult.setErr _
    · exact (h.setResult _).setErr _
  | clr => exact h.dropKey.dropAead.dropResult.setErr _
  | illegal => exact h.setErr _
  | rdStatus | rdParam | rdResult | rdReserved => exact h

/-- The command in flight completes alike. -/
theorem complete :
    (Machine.bodyOf (decodeCommand x.latchW) x).xde.finish.Alike
      (Machine.bodyOf (decodeCommand y.latchW) y).xde.finish := by
  rw [← h.latchW]
  obtain ⟨-, hdbl⟩ := h.latchD
  exact (h.bodyOf _ hdbl).finish

end Xde.Alike

/-! ### Two moves of the host that are alike -/

/-- Moves that differ at most in secrets are of one kind, and only the data of a presentation may differ. -/
theorem moveLike_cases {m m' : HostMove} (h : MoveLike m m') :
    (∃ w d d', m = .present w d ∧ m' = .present w d' ∧ DataLike w d d') ∨
      (∃ rsel, m = .read rsel ∧ m' = .read rsel) ∨ (m = .wait ∧ m' = .wait) := by
  cases m with
  | present w d =>
    cases m' with
    | present w' d' =>
      obtain ⟨rfl, hd⟩ := h
      exact .inl ⟨w, d, d', rfl, rfl, hd⟩
    | read | wait => cases h
  | read rsel => exact .inr (.inl ⟨rsel, rfl, Eq.symm h⟩)
  | wait => exact .inr (.inr ⟨rfl, Eq.symm h⟩)

theorem dataCountOk_eq {w : CommandWord} {d d' : List Byte} (hd : DataLike w d d') :
    dataCountOk w d = dataCountOk w d' := by
  obtain ⟨hlen, -⟩ := hd
  simp only [dataCountOk, hlen]

/-! ### Two steps that are alike -/

/-- Both steps answer, with states that are the same to the host, or both are refused for one reason. -/
inductive ResultAlike : Result → Result → Prop
  | next {t t' : State} (h : SameToHost t t') : ResultAlike (.next t) (.next t')
  | refused (r : Refusal) : ResultAlike (.refused r) (.refused r)

theorem ResultAlike.exists_next {t : State} {r : Result} (h : ResultAlike (.next t) r) :
    ∃ t', r = .next t' ∧ SameToHost t t' := by
  cases h with
  | next h => exact ⟨_, rfl, h⟩

section
variable {x x' : Xde} (hx : x.Alike x') {host host' : List HostMove} (hh : List.Forall₂ MoveLike host host')
  (ms : List Turn) (o o' : Output)
include hx hh

theorem Xde.Alike.next {o o' : Output} (ho : hostView o = hostView o') :
    ResultAlike (.next ⟨x, host, ms, o⟩) (.next ⟨x', host', ms, o'⟩) :=
  .next ((sameToHost_iff _ _).2 ⟨hx, hh, rfl, ho⟩)

theorem engineTurn_alike : ResultAlike (engineTurn ⟨x, host, ms, o⟩) (engineTurn ⟨x', host', ms, o'⟩) := by
  simp only [engineTurn, exec_command, hx.busy]
  split_ifs
  · exact hx.complete.next hh ms rfl
  · exact hx.next hh ms rfl

theorem ackStep_alike : ResultAlike (ackStep ⟨x, host, ms, o⟩) (ackStep ⟨x', host', ms, o'⟩) := by
  simp only [ackStep, hx.aeadValid]
  split_ifs
  · exact hx.dropAead.next hh ms rfl
  · exact hx.next hh ms rfl

theorem read_alike (rsel : BitVec 2) :
    ResultAlike (exec (decode (.read rsel)) ⟨x, host, ms, o⟩)
      (exec (decode (.read rsel)) ⟨x', host', ms, o'⟩) := by
  rw [exec_read, exec_read, hx.readValue_eq]
  exact hx.next hh ms rfl

/-- The host is refused, held or accepted alike: the count, the word and CMD_READY are the same. -/
theorem presentStep_alike {w : CommandWord} {d d' : List Byte} (hd : DataLike w d d')
    {rest rest' : List HostMove} (hrest : List.Forall₂ MoveLike rest rest') :
    ResultAlike (presentStep w d rest ⟨x, host, ms, o⟩) (presentStep w d' rest' ⟨x', host', ms, o'⟩) := by
  simp only [presentStep, dataCountOk_eq hd, hx.cmdReady_eq]
  split_ifs
  · exact (hx.accept hd).next hrest ms rfl
  · exact hx.next hh ms rfl
  · exact .refused _

theorem withdrawStep_alike :
    ResultAlike (withdrawStep ⟨x, host, ms, o⟩) (withdrawStep ⟨x', host', ms, o'⟩) := by
  cases hh with
  | nil => exact hx.next .nil ms rfl
  | cons hm hrest =>
    obtain ⟨w, d, d', rfl, rfl, -⟩ | ⟨rsel, rfl, rfl⟩ | ⟨rfl, rfl⟩ := moveLike_cases hm
    · exact hx.next hrest ms rfl
    · exact hx.next (.cons hm hrest) ms rfl
    · exact hx.next (.cons hm hrest) ms rfl

theorem hostTurn_alike : ResultAlike (hostTurn ⟨x, host, ms, o⟩) (hostTurn ⟨x', host', ms, o'⟩) := by
  cases hh with
  | nil => exact hx.next .nil ms rfl
  | cons hm hrest =>
    obtain ⟨w, d, d', rfl, rfl, hd⟩ | ⟨rsel, rfl, rfl⟩ | ⟨rfl, rfl⟩ := moveLike_cases hm
    · exact presentStep_alike hx (.cons hm hrest) ms o o' hd hrest
    · exact read_alike hx hrest ms o o' rsel
    · rw [hostTurn_wait rfl, hostTurn_wait rfl]
      simp only [hx.busy]
      refine read_alike hx ?_ ms o o' 0b00#2
      split_ifs
      · exact .cons hm hrest
      · exact hrest

end

/-- One step of two states that are the same to the host. -/
theorem step_alike {s s' : State} (h : SameToHost s s') : ResultAlike (step s) (step s') := by
  obtain ⟨x, host, ms, o⟩ := s
  obtain ⟨x', host', ms', o'⟩ := s'
  obtain ⟨hx, hh, rfl, -⟩ := (sameToHost_iff _ _).1 h
  have hturn : (State.mk x' host' ms o').turnNow = (State.mk x host ms o).turnNow := by
    cases ms with
    | nil => rw [turnNow_nil, turnNow_nil, hx.busy]
    | cons => rfl
  rw [step_of_turnNow rfl, step_of_turnNow hturn]
  cases (State.mk x host ms o).turnNow with
  | host => exact hostTurn_alike hx hh ..
  | withdraw => exact withdrawStep_alike hx hh ..
  | consumer => exact ackStep_alike hx hh ..
  | engine => exact engineTurn_alike hx hh ..
  | reset => exact (Xde.Alike.refl Xde.reset).next hh _ rfl

/-- Settles O41: each step keeps the states the same to the host, so a run of any length does. -/
theorem secretsNeverReachTheHost : Obligations.SecretsNeverReachTheHost := by
  intro s s' t k h hrun
  induction k generalizing s s' with
  | zero =>
    cases hrun
    exact ⟨s', rfl, h⟩
  | succ k ih =>
    obtain ⟨u, hu, hrest⟩ := run_succ_next hrun
    obtain ⟨u', hu', huu'⟩ := (hu ▸ step_alike h).exists_next
    rw [run_succ_of_step k hu']
    exact ih u u' huu' hrest

end Sys2Proof.Machine
end

section
/-!
PROOFS. Reset and hazards (spec/70_reset_and_hazards.md): reset (R150), the one refusal (R160), a pending hand-off
over a run (R157) and the host it holds (R118), a command in flight that completes (R158), and the end of a run
(R164).
-/

namespace Sys2Proof.Machine

/-! ### Reset -/

/-- Settles O35: the step of a reset, and the reset values written out. -/
theorem resetSetsEveryRegister : Obligations.ResetSetsEveryRegister := by
  rintro ⟨x, host, turns, o⟩ rest rfl
  exact ⟨step_reset host rest o, rfl, by decide⟩

/-! ### The one refusal -/

theorem presentStep_refused_iff (w : CommandWord) (d : List Byte) (rest : List HostMove) (s : State)
    (r : Refusal) :
    presentStep w d rest s = .refused r ↔ r = .dataCountMismatch ∧ dataCountOk w d = false := by
  unfold presentStep
  cases dataCountOk w d <;> cases s.xde.cmdReady w <;> simp [eq_comm]

/-- Of what a host can do only a presentation is ever refused. -/
theorem hostTurn_refused_iff (s : State) (r : Refusal) :
    hostTurn s = .refused r ↔ r = .dataCountMismatch ∧
      ∃ w d more, s.host = .present w d :: more ∧ dataCountOk w d = false := by
  obtain ⟨x, host, ms, o⟩ := s
  cases host with
  | nil => simp [hostTurn, idleStep]
  | cons m more =>
    cases m with
    | present w d => simp [hostTurn, presentStep_refused_iff]
    | read rsel => simp [hostTurn, exec_read, respond]
    | wait => simp [hostTurn, exec_read, respond]

/-- The other agents' turns always answer a next state. -/
theorem runTurn_ne_refused {m : Turn} (hm : m ≠ .host) (s : State) (r : Refusal) :
    runTurn m s ≠ .refused r := by
  cases m with
  | host => exact absurd rfl hm
  | withdraw => simp only [runTurn, withdrawStep]; split <;> nofun
  | consumer => simp only [runTurn, ackStep]; split_ifs <;> nofun
  | engine => simp only [runTurn, engineTurn, exec_command, complete]; split_ifs <;> nofun
  | reset => nofun

theorem step_refused_iff (s : State) (r : Refusal) :
    step s = .refused r ↔ r = .dataCountMismatch ∧ s.turnNow = .host ∧
      ∃ w d more, s.host = .present w d :: more ∧ dataCountOk w d = false := by
  rw [step_of_turnNow rfl]
  by_cases hn : s.turnNow = .host
  · simp only [hn, runTurn, hostTurn_refused_iff, true_and]
  · simp [hn, runTurn_ne_refused]

/-- A data count that is not DLEN, with DLEN read by division (R63, R160). -/
theorem dataCountOk_eq_false_iff (w : CommandWord) (d : List Byte) :
    dataCountOk w d = false ↔ d.length ≠ w.toNat / 2 ^ 40 % 2 ^ 8 := by
  rw [← Bool.not_eq_true, dataCountOk_iff, dlenField_toNat]

/-- Settles O36: there is no fault to answer, and a refusal is the host's turn at a wrong data count. -/
theorem onlyAWrongDataCountIsRefused : Obligations.OnlyAWrongDataCountIsRefused := by
  refine fun s => ⟨nofun, fun r => ?_⟩
  simp only [step_refused_iff, dataCountOk_eq_false_iff]

/-! ### A host that keeps the data count -/

section
variable {s t : State}

/-- Such a host is never refused, so every state has a next one. -/
theorem exists_step_of_keepsCount (hc : HostKeepsCount s.host) : ∃ t, step s = .next t := by
  cases hstep : step s with
  | next t => exact ⟨t, rfl⟩
  | fault f => cases f
  | refused r =>
    obtain ⟨-, -, w, d, more, hhost, hd⟩ := (step_refused_iff s r).1 hstep
    exact absurd (hc w d (hhost ▸ List.mem_cons_self)) (Bool.eq_false_iff.1 hd)

theorem HostKeepsCount.of_step (hc : HostKeepsCount s.host) (h : step s = .next t) :
    HostKeepsCount t.host := by
  obtain ⟨hhost | hhost, -, -⟩ := step_next_xde h <;> rw [hhost]
  · exact hc
  · exact fun w d hm => hc w d (List.mem_of_mem_tail hm)

/-! ### A pending hand-off over a run -/

/-- A turn that is neither the engine's nor the host's comes only from the schedule. -/
theorem turnNow_mem_turns (he : s.turnNow ≠ .engine) (hh : s.turnNow ≠ .host) : s.turnNow ∈ s.turns := by
  obtain ⟨x, host, _ | ⟨m, ms⟩, o⟩ := s
  · rw [turnNow_nil] at he hh
    split_ifs at he hh
    · exact absurd rfl he
    · exact absurd rfl hh
  · exact List.mem_cons_self

theorem heldByHandOff_of_prep {w : CommandWord}
    (h : (∃ n, decodeCommand w = .sealprep n) ∨ ∃ n c, decodeCommand w = .openprep n c) :
    heldByHandOff w = true := by
  rw [heldByHandOff_iff, ← opcodeOf_decodeCommand]
  obtain ⟨n, h⟩ | ⟨n, c, h⟩ := h <;> simp [h, opcodeOf]

/-- The AEAD registers hold the hand-off `a`, and nothing in flight, still to come or scheduled writes them. -/
structure HandOffStays (a : Aead) (s : State) : Prop where
  aead_eq : s.xde.aead = a
  pending : s.xde.aead.valid = true
  inFlight : s.xde.busy = true → heldByHandOff s.xde.latchW = false ∧ decodeCommand s.xde.latchW ≠ .clr
  noRelease : ∀ m ∈ s.turns, m ≠ .consumer ∧ m ≠ .reset
  noClr : ∀ w d, HostMove.present w d ∈ s.host → decodeCommand w ≠ .clr

variable {a : Aead}

/-- The steps that write the AEAD registers are the ones `HandOffStays` shuts out. -/
theorem HandOffStays.aead_step (hs : HandOffStays a s) (h : step s = .next t) : t.xde.aead = s.xde.aead := by
  by_contra hne
  have hturn (he : s.turnNow ≠ .engine) (hh : s.turnNow ≠ .host) := hs.noRelease _ (turnNow_mem_turns he hh)
  obtain ⟨-, hwrite, -⟩ := registersAreWrittenOnlyBy s t h
  obtain hn | hn | ⟨-, hb, hc | hprep⟩ := hwrite hne
  · exact (hturn (by simp [hn]) (by simp [hn])).2 hn
  · exact (hturn (by simp [hn]) (by simp [hn])).1 hn
  · exact (hs.inFlight hb).2 hc
  · exact Bool.false_ne_true ((hs.inFlight hb).1.symm.trans (heldByHandOff_of_prep hprep))

/-- What a step accepts behind a hand-off is no SEALPREP and no OPENPREP opcode (R37). -/
theorem HandOffStays.of_step (hs : HandOffStays a s) (h : step s = .next t) : HandOffStays a t := by
  have haead := hs.aead_step h
  obtain ⟨hhost, hturns, hx⟩ := step_next_xde h
  refine ⟨haead.trans hs.aead_eq, haead ▸ hs.pending, ?_,
    fun m hm => hs.noRelease m (List.mem_of_mem_tail (hturns ▸ hm)), fun w d hm => hs.noClr w d ?_⟩
  · obtain hx | ⟨-, -, hx⟩ | ⟨-, w, d, rest, hh, -, hr, hx⟩ | ⟨-, -, hx⟩ | ⟨-, hx⟩ := hx <;> rw [hx]
    · exact hs.inFlight
    · exact nofun
    · obtain ⟨-, hready⟩ := (cmdReady_iff _ _).1 hr
      exact fun _ => ⟨Bool.eq_false_iff.2 fun hheld => hready ⟨hheld, hs.pending⟩,
        hs.noClr w d (hh ▸ List.mem_cons_self)⟩
    · exact hs.inFlight
    · exact nofun
  · obtain hhost | hhost := hhost <;> rw [hhost] at hm
    · exact hm
    · exact List.mem_of_mem_tail hm

end

/-- Settles O42: the premises are `HandOffStays` of the state's AEAD registers, and every step keeps it. -/
theorem handOffIsHeldUntilReleased : Obligations.HandOffIsHeldUntilReleased := by
  intro s t k hv hflight hturns hhost h
  have ht := run_keeps (fun _ _ => HandOffStays.of_step) k s t ⟨rfl, hv, hflight, hturns, hhost⟩ h
  exact ⟨ht.aead_eq, fun hb => (ht.inFlight hb).1⟩

/-! ### The held host -/

section
variable {x : Xde} {w : CommandWord} {d : List Byte} (hb : x.busy = false) (hr : x.cmdReady w = false)
  (hd : dataCountOk w d = true)
include hb hr hd

/-- With XDE idle and the presentation held, a turn of the engine has nothing to do and a turn of the host leaves it
where it stands (R118). -/
theorem step_of_held (more : List HostMove) {ms : List Turn} (hms : ∀ m ∈ ms, m = .host ∨ m = .engine)
    (o : Output) :
    ∃ o', step ⟨x, .present w d :: more, ms, o⟩ = .next ⟨x, .present w d :: more, ms.tail, o'⟩ := by
  have hhost : hostTurn ⟨x, .present w d :: more, ms.tail, o⟩ =
      .next ⟨x, .present w d :: more, ms.tail, .cmdReady false⟩ :=
    (hostTurn_next_iff _ _).2 (.inr (.inl ⟨w, d, more, rfl, hd, .inr ⟨hr, rfl⟩⟩))
  cases ms with
  | nil =>
    have hn : (State.mk x (.present w d :: more) [] o).turnNow = .host :=
      (turnNow_nil ..).trans (if_neg (Bool.eq_false_iff.1 hb))
    exact ⟨_, (step_of_turnNow hn).trans hhost⟩
  | cons m ms =>
    obtain rfl | rfl := hms m List.mem_cons_self
    · exact ⟨_, (step_of_turnNow (turnNow_cons ..)).trans hhost⟩
    · exact ⟨_, (step_of_turnNow (turnNow_cons ..)).trans ((engineTurn_next_iff _ _).2 (.inr ⟨hb, rfl⟩))⟩

theorem run_of_held (more : List HostMove) {ms : List Turn} (hms : ∀ m ∈ ms, m = .host ∨ m = .engine)
    (o : Output) (k : Nat) :
    ∃ ms' o', core.run k ⟨x, .present w d :: more, ms, o⟩ = .next ⟨x, .present w d :: more, ms', o'⟩ := by
  induction k generalizing ms o with
  | zero => exact ⟨ms, o, rfl⟩
  | succ k ih =>
    obtain ⟨o₁, hstep⟩ := step_of_held hb hr hd more hms o
    rw [run_succ_of_step k hstep]
    exact ih (fun m hm => hms m (List.mem_of_mem_tail hm)) o₁

end

/-- Settles O47: the hand-off holds the presentation, and a host that still presents has not ended. -/
theorem heldHostWaitsForEver : Obligations.HeldHostWaitsForEver := by
  rintro ⟨x, host, turns, o⟩ w d more hb hv hw rfl hlen hturns k
  obtain ⟨ms, o', hrun⟩ :=
    run_of_held hb (cmdReady_of_pending hv hw) (dataCountOk_of_length hlen) more hturns o k
  exact ⟨_, hrun, rfl, rfl, rfl⟩

/-! ### A command in flight -/

/-- No body reads an AEAD register, so an acknowledge before it changes the AEAD registers only. -/
theorem dropAead_bodyOf_dropAead (i : Instr) (x : Xde) :
    (bodyOf i x.dropAead).xde.dropAead = (bodyOf i x).xde.dropAead := by
  cases i with
  | ldkey dlen =>
    simp only [bodyOf, ldkeyBody]
    split_ifs <;> rfl
  | sealprep dlen =>
    simp only [bodyOf, sealprepBody]
    -- An acknowledge leaves KEYED, so both sides test the same condition.
    show (if x.keyed = false then _ else _ : Body).xde.dropAead = _
    split_ifs <;> rfl
  | openprep dlen ctlen =>
    simp only [bodyOf, openprepBody]
    show (if x.keyed = false then _ else _ : Body).xde.dropAead = _
    split_ifs <;> rfl
  | dbl dlen =>
    simp only [bodyOf, dblBody]
    split_ifs <;> rfl
  | clr | illegal | rdStatus | rdParam | rdResult | rdReserved => rfl

section
variable {s : State}

/-- While a command is in flight the host and the consumer change no register but the AEAD registers, and those
only by an acknowledge of a pending hand-off (R117, R121). -/
theorem step_in_flight (hb : s.xde.busy = true) (hr : s.turnNow ≠ .reset) (he : s.turnNow ≠ .engine)
    (hc : HostKeepsCount s.host) :
    ∃ t, step s = .next t ∧ HostKeepsCount t.host ∧ t.turns = s.turns.tail ∧
      (t.xde = s.xde ∨ s.turnNow = .consumer ∧ s.xde.aead.valid = true ∧ t.xde = s.xde.dropAead) := by
  obtain ⟨t, h⟩ := exists_step_of_keepsCount hc
  obtain ⟨-, hturns, hx | ⟨hn, -⟩ | ⟨-, w, d, rest, -, -, hready, -⟩ | hack | ⟨hn, -⟩⟩ := step_next_xde h
  · exact ⟨t, h, hc.of_step h, hturns, .inl hx⟩
  · exact absurd hn he
  · exact absurd ((cmdReady_iff _ _).1 hready).1 (by simp [hb])
  · exact ⟨t, h, hc.of_step h, hturns, .inr hack⟩
  · exact absurd hn hr

/-- After any turns of the host and the consumer the command is still in flight. -/
theorem run_in_flight {pre rest : List Turn} (hb : s.xde.busy = true) (hturns : s.turns = pre ++ rest)
    (hpre : ∀ m ∈ pre, m ≠ .reset ∧ m ≠ .engine) (hc : HostKeepsCount s.host) :
    ∃ t, core.run pre.length s = .next t ∧ t.turns = rest ∧
      (t.xde = s.xde ∨ Turn.consumer ∈ pre ∧ s.xde.aead.valid = true ∧ t.xde = s.xde.dropAead) := by
  induction pre generalizing s with
  | nil => exact ⟨s, rfl, hturns, .inl rfl⟩
  | cons m pre ih =>
    have hn : s.turnNow = m := by simp only [State.turnNow, hturns, List.cons_append]
    obtain ⟨hr, he⟩ := hpre m List.mem_cons_self
    obtain ⟨u, hu, hcu, htu, hxu⟩ := step_in_flight hb (hn ▸ hr) (hn ▸ he) hc
    have hbu : u.xde.busy = true := by
      obtain hxu | ⟨-, -, hxu⟩ := hxu <;> rw [hxu] <;> exact hb
    obtain ⟨t, ht, htt, hxt⟩ :=
      ih hbu (by rw [htu, hturns]; rfl) (fun m hm => hpre m (List.mem_cons_of_mem _ hm)) hcu
    refine ⟨t, (run_succ_of_step _ hu).trans ht, htt, ?_⟩
    obtain hxu | ⟨hnu, hv, hxu⟩ := hxu <;> rw [hxu] at hxt
    · exact hxt.imp_right fun ⟨hm, hx⟩ => ⟨List.mem_cons_of_mem _ hm, hx⟩
    · exact .inr ⟨by simp [← hn, hnu], hv, hxt.elim id fun ⟨_, _, hx⟩ => hx⟩

/-- The engine's turn, scheduled or come because nothing is, completes the command in flight (R116, R158). -/
theorem step_completes (hb : s.xde.busy = true) (hturns : s.turns = [] ∨ s.turns.head? = some .engine) :
    ∃ t, step s = .next t ∧ t.xde = (bodyOf (decodeCommand s.xde.latchW) s.xde).xde.finish := by
  obtain ⟨x, host, ms, o⟩ := s
  have hn : (State.mk x host ms o).turnNow = .engine := by
    cases ms with
    | nil => exact (turnNow_nil ..).trans (if_pos hb)
    | cons m ms => simpa using hturns
  exact ⟨_, (step_of_turnNow hn).trans ((engineTurn_next_iff _ _).2 (.inl ⟨hb, rfl⟩)), rfl⟩

end

/-- Settles O44: what was done before the completion is nothing or an acknowledge, and no body reads what an
acknowledge writes; with a SEALPREP or OPENPREP in flight there is no hand-off to acknowledge. -/
theorem acceptedCommandCompletes : Obligations.AcceptedCommandCompletes := by
  intro s pre rest hb hturns hpre hc hrest
  obtain ⟨v, hv, htv, hxv⟩ := run_in_flight hb hturns hpre hc
  obtain ⟨hbv, hwv⟩ : v.xde.busy = true ∧ v.xde.latchW = s.xde.latchW := by
    obtain hxv | ⟨-, -, hxv⟩ := hxv <;> rw [hxv] <;> exact ⟨hb, rfl⟩
  obtain ⟨t, ht, hxt⟩ := step_completes hbv (htv ▸ hrest)
  rw [hwv] at hxt
  have hapart : t.xde.dropAead = (bodyOf (decodeCommand s.xde.latchW) s.xde).xde.finish.dropAead := by
    obtain hxv | ⟨-, -, hxv⟩ := hxv <;> rw [hxt, hxv]
    exact congrArg Xde.finish (dropAead_bodyOf_dropAead _ s.xde)
  obtain ⟨hmk, hk1, hkeyed, hbusy, herr, hresValid, hresult, -⟩ := Xde.ext_iff.1 hapart
  refine ⟨t, _, (run_add _ 1 hv).trans (run_succ_of_step 0 ht), exec_command s.xde.latchW s, hbusy, herr, hmk,
    hk1, hkeyed, hresult, hresValid, fun hnone => ?_⟩
  obtain hxv | ⟨hack, hvalid, -⟩ := hxv
  · rw [hxt, hxv]
  · obtain hnone | ⟨hinv, hheld⟩ := hnone
    · exact absurd hack hnone
    · exact absurd hvalid (Bool.eq_false_iff.1 (hinv.heldNotInFlight hb hheld))

/-! ### The end of a run -/

theorem heldByPending_iff (s : State) :
    s.heldByPending = true ↔ s.xde.busy = false ∧ s.xde.aead.valid = true ∧
      ∃ w d more, s.host = .present w d :: more ∧ heldByHandOff w = true := by
  obtain ⟨x, host, ms, o⟩ := s
  rcases host with _ | ⟨_ | _ | _, more⟩ <;> simp [State.heldByPending, and_assoc]

/-- With no turn scheduled and no other agent to act, the host stays held (R157). -/
theorem run_of_heldByPending {s : State} (hturns : s.turns = []) (hc : HostKeepsCount s.host)
    (hheld : s.heldByPending = true) (k : Nat) : ∃ t, core.run k s = .next t ∧ t.heldByPending = true := by
  obtain ⟨hb, hv, w, d, more, hhost, hw⟩ := (heldByPending_iff s).1 hheld
  obtain ⟨x, host, ms, o⟩ := s
  obtain rfl : host = .present w d :: more := hhost
  obtain rfl : ms = [] := hturns
  have hr : x.cmdReady w = false := Bool.eq_false_iff.2 fun hr => ((cmdReady_iff x w).1 hr).2 ⟨hw, hv⟩
  obtain ⟨ms', o', hrun⟩ := run_of_held hb hr (hc w d List.mem_cons_self) more (ms := []) nofun o k
  exact ⟨_, hrun, (heldByPending_iff _).2 ⟨hb, hv, w, d, more, rfl, hw⟩⟩

/-- A bound on the steps to the end of a run: two for each item of the host's program, one for a command in
flight. -/
def State.stepsLeft (s : State) : Nat := 2 * s.host.length + s.xde.busy.toNat

theorem ended_of_stepsLeft {s : State} (h : s.stepsLeft = 0) : s.ended = true := by
  obtain ⟨hhost, hb⟩ := Nat.add_eq_zero_iff.1 h
  simp_all [State.ended]

/-- With no turn scheduled each step of a host that is not held comes nearer to the end. -/
theorem stepsLeft_of_step {s t : State} (hturns : s.turns = []) (hheld : s.heldByPending = false)
    (h : step s = .next t) : t.stepsLeft ≤ s.stepsLeft - 1 := by
  obtain ⟨x, host, ms, o⟩ := s
  obtain rfl : ms = [] := hturns
  cases hb : x.busy with
  | true =>
    rw [step_of_turnNow ((turnNow_nil ..).trans (if_pos hb))] at h
    obtain ⟨-, rfl⟩ | ⟨hidle, -⟩ := (engineTurn_next_iff _ _).1 h
    · simp [State.stepsLeft, hb]
    · exact absurd (hb.symm.trans hidle) nofun
  | false =>
    rw [step_of_turnNow ((turnNow_nil ..).trans (if_neg (Bool.eq_false_iff.1 hb)))] at h
    obtain ⟨hhost, rfl⟩ | ⟨w, d, rest, hhost, -, ⟨-, rfl⟩ | ⟨hr, rfl⟩⟩ | ⟨_, rest, hhost, rfl⟩ |
      ⟨rest, hhost, rfl⟩ := (hostTurn_next_iff _ _).1 h <;> obtain rfl : host = _ := hhost
    · simp [State.stepsLeft, hb]
    · simp only [State.stepsLeft, List.length_cons, Xde.accept_busy, Bool.toNat_true]
      omega
    · -- XDE is idle and not ready: the hand-off holds the host, against `hheld`.
      obtain ⟨hw, hv⟩ : heldByHandOff w = true ∧ x.aead.valid = true := by
        by_contra hfree
        exact absurd ((cmdReady_iff x w).2 ⟨hb, hfree⟩) (Bool.eq_false_iff.1 hr)
      exact absurd ((heldByPending_iff _).2 ⟨hb, hv, w, d, rest, rfl, hw⟩) (Bool.eq_false_iff.1 hheld)
    · simp only [State.stepsLeft, List.length_cons]
      omega
    · simp only [State.stepsLeft, List.length_cons, hb, Bool.false_eq_true, if_false]
      omega

theorem run_ends_or_held (k : Nat) {s : State} (hturns : s.turns = []) (hc : HostKeepsCount s.host)
    (hk : s.stepsLeft ≤ k) :
    ∃ t, core.run k s = .next t ∧ (t.ended = true ∨ t.heldByPending = true) := by
  induction k generalizing s with
  | zero => exact ⟨s, rfl, .inl (ended_of_stepsLeft (Nat.le_zero.1 hk))⟩
  | succ k ih =>
    cases hheld : s.heldByPending with
    | true =>
      obtain ⟨t, ht, hheld'⟩ := run_of_heldByPending hturns hc hheld (k + 1)
      exact ⟨t, ht, .inr hheld'⟩
    | false =>
      obtain ⟨u, hu⟩ := exists_step_of_keepsCount hc
      obtain ⟨-, htu, -⟩ := step_next_xde hu
      have hku := stepsLeft_of_step hturns hheld hu
      rw [run_succ_of_step k hu]
      exact ih (by rw [htu, hturns]; rfl) (hc.of_step hu) (by omega)

/-- Settles O49: `stepsLeft` is at most two for each item of the program and one. -/
theorem runEndsUnlessHeld : Obligations.RunEndsUnlessHeld := fun _ hturns hc =>
  run_ends_or_held _ hturns hc (Nat.add_le_add_left (Bool.toNat_le _) _)

end Sys2Proof.Machine
end
